-- ==== Sys2Proof/Word.lean ====
section
/-! DEFINITION. The value types of the RelayFrame core: unsigned bytes, 16-bit CRC values and
32-bit register words (00_scope.md R9, R12), and the fixed-size byte sequences (R13, R140). -/

namespace Sys2Proof

/-- "unsigned 8-bit bytes" (R9). -/
abbrev Byte := BitVec 8

/-- A "16-bit unsigned integer": a CRC value or a flash duration (R9). -/
abbrev Half := BitVec 16

/-- A 32-bit register or command word (R29, R70). -/
abbrev Word := BitVec 32

/-- Frame bytes 0-5, "the 6 data bytes" the CRC covers (R17). -/
abbrev Payload := Vector Byte 6

/-- A Command Frame, "exactly 8 unsigned 8-bit bytes", index 0 first (R13, R81, R140). -/
abbrev Frame := Vector Byte 8

end Sys2Proof
end

