-- ==== Sys2Proof/Syntax.lean ====
section
/-! DEFINITION. The decoded commands, one constructor per row of spec/opcode_table.json
(30_encoding.md R72, R76). -/

namespace Sys2Proof

/-- A decoded command, the spec's `Cmd` (R72).  Operands are unsigned and have the width of their
field of the command word (R70, R73). -/
inductive Instr where
  /-- RELAY.ON idx, `RelayOn(idx:8)` (R130). -/
  | relayOn (idx : Byte)
  /-- RELAY.OFF idx, `RelayOff(idx:8)` (R131). -/
  | relayOff (idx : Byte)
  /-- RELAY.FLIP idx, `RelayFlip(idx:8)` (R132). -/
  | relayFlip (idx : Byte)
  /-- FLASH.ON idx, dur, `FlashOn(idx:8, dur:16)` (R135). -/
  | flashOn (idx : Byte) (dur : Half)
  /-- FLASH.OFF idx, dur, `FlashOff(idx:8, dur:16)` (R136). -/
  | flashOff (idx : Byte) (dur : Half)
  /-- STATEQ, `StateQuery` (R138). -/
  | stateQuery
  /-- CRC.INIT, `CrcInit` (R110). -/
  | crcInit
  /-- CRC.UPD data, `CrcUpd(data:8)` (R111). -/
  | crcUpd (data : Byte)
  deriving DecidableEq, Repr

end Sys2Proof
end

