-- ==== Sys2Proof/WellFormed.lean ====
section
/-! DEFINITION. Which decoded commands have operands in the range the spec admits. -/

namespace Sys2Proof

/-- Every 8-bit IDX and every 8-bit DATA is admitted (R74, R111).  A flash duration is 1-65535: "DUR
0x0001-0xFFFF is accepted. DUR = 0 in a flash command is refused with RANGE" (R75); the decoder
does not check it (R78), acceptance does (R171). -/
def Instr.wellFormed : Instr → Bool
  | .relayOn _ => true
  | .relayOff _ => true
  | .relayFlip _ => true
  | .flashOn _ dur => dur != 0
  | .flashOff _ dur => dur != 0
  | .stateQuery => true
  | .crcInit => true
  | .crcUpd _ => true

end Sys2Proof
end

