-- ==== Sys2Proof/Decode.lean ====
section
/-! DEFINITION. Decoding a command word (30_encoding.md R70-R80), total on all 2^32 words and
rejecting by name, and the encoder written from the bit patterns of R71 and the matches of R77. -/

namespace Sys2Proof

/-- Why a word is ILLEGAL.  The block reports one code for all of them (R79, R170); the names are
the model's, in the order in which `decode` of R78 looks. -/
inductive Illegal where
  /-- RSV, bits 27:24, is not zero (R70, R78). -/
  | reservedBits (rsv : BitVec 4)
  /-- A reserved opcode, 0x0, 0x7 or 0xA-0xF (R76, R79). -/
  | reservedOpcode (op : BitVec 4)
  /-- A must-be-zero bit of the opcode's format is set (R71, R79). -/
  | mustBeZero (op : BitVec 4)
  deriving DecidableEq, Repr

/-- OP, bits 31:28 (R70). -/
def opField (w : Word) : BitVec 4 := w.extractLsb' 28 4

/-- RSV, bits 27:24 (R70). -/
def rsvField (w : Word) : BitVec 4 := w.extractLsb' 24 4

/-- IDX, bits 23:16 (R70). -/
def idxField (w : Word) : Byte := w.extractLsb' 16 8

/-- DUR, bits 15:0, that is DH over DL (R70). -/
def durField (w : Word) : Half := w.extractLsb' 0 16

/-- DATA, bits 7:0 (R70). -/
def dataField (w : Word) : Byte := w.extractLsb' 0 8

/-- Answers `i` when the bits `z` the format demands to be zero are zero (R71). -/
def whenZero {n : Nat} (z : BitVec n) (op : BitVec 4) (i : Instr) : Except Illegal Instr :=
  if z = 0 then .ok i else .error (.mustBeZero op)

/-- `decode(w)` of R78.  It reads only the word, and it does not check a flash duration. -/
def decode (w : Word) : Except Illegal Instr :=
  if rsvField w ≠ 0 then .error (.reservedBits (rsvField w))
  else match opField w with
    | 0x1#4 => whenZero (w.extractLsb' 0 16) 0x1 (.relayOn (idxField w))
    | 0x2#4 => whenZero (w.extractLsb' 0 16) 0x2 (.relayOff (idxField w))
    | 0x3#4 => whenZero (w.extractLsb' 0 16) 0x3 (.relayFlip (idxField w))
    | 0x4#4 => .ok (.flashOn (idxField w) (durField w))
    | 0x5#4 => .ok (.flashOff (idxField w) (durField w))
    | 0x6#4 => whenZero (w.extractLsb' 0 24) 0x6 .stateQuery
    | 0x8#4 => whenZero (w.extractLsb' 0 24) 0x8 .crcInit
    | 0x9#4 => whenZero (w.extractLsb' 8 16) 0x9 (.crcUpd (dataField w))
    | op => .error (.reservedOpcode op)

/-- The command word of an instruction: the bit patterns of R71 with the opcodes of R76. -/
def encode : Instr → Word
  | .relayOn idx => 0x10#8 ++ idx ++ 0#16
  | .relayOff idx => 0x20#8 ++ idx ++ 0#16
  | .relayFlip idx => 0x30#8 ++ idx ++ 0#16
  | .flashOn idx dur => 0x40#8 ++ idx ++ dur
  | .flashOff idx dur => 0x50#8 ++ idx ++ dur
  | .stateQuery => 0x60000000#32
  | .crcInit => 0x80000000#32
  | .crcUpd data => 0x900000#24 ++ data

/-- The instruction this decoder reads from `nbits` bits of an opcode-table row.  Every command is
exactly one 32-bit word (R80), bit 0 its least significant bit (R11); a number that needs more
bits than that is no command. -/
def decodeTableWord (nbits w : Nat) : Option Instr :=
  if w % 2 ^ nbits < 2 ^ 32 then (decode (BitVec.ofNat 32 (w % 2 ^ nbits))).toOption else none

/-- The mnemonic of an instruction (R84). -/
def Instr.mnemonic : Instr → String
  | .relayOn _ => "RELAY.ON"
  | .relayOff _ => "RELAY.OFF"
  | .relayFlip _ => "RELAY.FLIP"
  | .flashOn _ _ => "FLASH.ON"
  | .flashOff _ _ => "FLASH.OFF"
  | .stateQuery => "STATEQ"
  | .crcInit => "CRC.INIT"
  | .crcUpd _ => "CRC.UPD"

end Sys2Proof
end

