-- ==== Sys2Proof/Machine/HostSyntax.lean ====
section
/-! DEFINITION. The second agent, the host (10_state.md R20): the slots of the register window it
reads and writes (R29, R50) and the operations of its own program (45_host_side.md R158).  Data
only; what they do is in Machine/Window.lean and Machine/HostSteps.lean. -/

namespace Sys2Proof.Machine

/-- The eight 32-bit slots of the register window (R29, R50). -/
inductive Slot where
  /-- CMD, offset 0x00 (R30). -/
  | cmd
  /-- STATUS, offset 0x04 (R31). -/
  | status
  /-- CRC, offset 0x08 (R33). -/
  | crc
  /-- FRAME0, offset 0x0C (R34). -/
  | frame0
  /-- FRAME1, offset 0x10 (R34). -/
  | frame1
  /-- Offset 0x14, reserved (R35). -/
  | reserved14
  /-- Offset 0x18, reserved (R35). -/
  | reserved18
  /-- Offset 0x1C, reserved (R35). -/
  | reserved1C
  deriving DecidableEq, Repr

/-- The two agents that step: "No other agent exists" (R20). -/
inductive Agent where
  | host
  | core
  deriving DecidableEq, Repr

/-- The expressions of `x <- e`, over host variables and constants (R158).  The spec gives examples
(`k + 1`, `0x90000000 | b`, `byte(f, k)`) and no list of operators: DESIGN CHOICE, log entry 9. -/
inductive HostExpr where
  | const (v : Word)
  | var (x : Nat)
  | add (a b : HostExpr)
  | sub (a b : HostExpr)
  | bitAnd (a b : HostExpr)
  | bitOr (a b : HostExpr)
  | bitXor (a b : HostExpr)
  | shiftLeft (a : HostExpr) (n : Nat)
  | shiftRight (a : HostExpr) (n : Nat)
  /-- `byte(f, k)`: frame byte `k` of the words `f0`, `f1` read from FRAME0 and FRAME1 (R34, R158). -/
  | frameByte (f0 f1 k : HostExpr)
  deriving DecidableEq, Repr

/-- What the transport's one read call gives the host (R154): "whatever bytes arrive", or the single
TransportFailure condition. -/
inductive Reply where
  | bytes (bs : List Byte)
  | transportFailure
  deriving DecidableEq, Repr

/-- The result of `decodeState` (R155). -/
inductive DecodedReply where
  /-- The Relay State Vector, element `i` for relay `i + 1`. -/
  | relayStates (v : Vector Bool 8)
  | malformedResponse
  deriving DecidableEq, Repr

/-- One operation of the host's program (R158), each one step of the host.  An access names its
width in bytes and its full address, so that an access the block does not admit can be written
down too (R52).  A branch target is a position in the program (log entry 14). -/
inductive HostOp where
  /-- `MemWrite(addr, bytes, v)`; `SW off, v` is `store 4 (BASE + off) v`. -/
  | store (bytes addr : Nat) (v : HostExpr)
  /-- `x <- MemRead(addr, bytes)`; `LW off -> x` is `load 4 (BASE + off) x`. -/
  | load (bytes addr : Nat) (x : Nat)
  /-- `WAIT`: "read STATUS repeatedly until BUSY = 0" (R157), one read a step. -/
  | wait
  /-- `BNE x, v, label`. -/
  | bne (x : Nat) (v : HostExpr) (target : Nat)
  /-- `x <- e`. -/
  | assign (x : Nat) (e : HostExpr)
  /-- `SEND f0..f7`: hand 8 bytes to the transport, first byte first (R154, R158). -/
  | send (fs : Vector HostExpr 8)
  /-- `RECV -> r`, the one variable `r` being `HostSide.reply` (log entry 23). -/
  | receive
  /-- `v <- decodeState(r)` (R155), the one variable `v` being `HostSide.decoded` (log entry 23). -/
  | decodeReply
  /-- The reset event as the one atomic step of R200. -/
  | reset
  /-- Assert the reset input and hold it (R201). -/
  | assertReset
  /-- End a reset that is being held (R201). -/
  | releaseReset
  deriving DecidableEq, Repr

/-- The host: its program and its position in it (R21: "the host owns that"), its variables (R158),
and what passes between it and the transport (R154).  None of it is state of the block (R38). -/
structure HostSide where
  /-- The host's program, its sequence of operations (R38). -/
  prog : List HostOp
  /-- "the host's position in its own command sequence" (R21). -/
  pos : Nat
  /-- How many moves the host has made: the counter the free values of Config are applied to, so that
  each move meets fresh ones (the model's own; DESIGN CHOICE, log entry 13). -/
  draws : Nat
  /-- The host variables that have been assigned, by rising variable number (log entry 17). -/
  vars : List (Nat × Word)
  /-- The frames handed to the transport, oldest first. -/
  sent : List Frame
  /-- The replies the transport will yet give, the next one first: inputs (R38; log entry 15). -/
  replies : List Reply
  /-- The reply last received, the variable `r` of RECV: the only one, and apart from `vars` (DESIGN
  CHOICE, log entry 23). -/
  reply : Option (List Byte)
  /-- The result of the last reply decode, the variable `v` it is assigned to: the only one, and apart
  from `vars` (DESIGN CHOICE, log entry 23). -/
  decoded : Option DecodedReply
  /-- Whether the transport has failed: "surfaced unchanged to the invoking layer" (R154). -/
  transportFailed : Bool
  deriving DecidableEq, Repr

end Sys2Proof.Machine
end

