-- ==== Sys2Proof/Machine/State.lean ====
section
/-! DEFINITION. The machine's state as plain data (10_state.md R36-R38), the reasons a step can stop,
and the state right after reset. -/

namespace Sys2Proof.Machine

/-- Why a step has no next state.  The first two are the model faults R186 names, the next two its stuck
states; the last is the host's step that never returns (I22).  A stuck host stops the machine only
when no command is pending, since the core has its step else (`nextAgent`).  None is an error of the
block: a refused command is a next state with ERR = 1 (R186). -/
inductive Fault where
  /-- The host reads CRC, FRAME0 or FRAME1 while BUSY = 1 (R210, I3).  Raised by `busRead`.  Safe: the
  hardware goes on with an unspecified value (log entry 6). -/
  | readWhileBusy (slot : Slot)
  /-- The host reads FRAME0 or FRAME1 while FVALID = 0: "A model treats it as a fault" (R211, R37, R186,
  I4), the buffer being one the spec gives no value at reset (R23, R36).  Raised by `busRead`.  Safe (log
  entry 6). -/
  | readUnwrittenFrame (slot : Slot)
  /-- Stuck: an access that is not 32 bits wide, not aligned or outside the window (R52, I6).  Raised
  by `hostStore` and `hostLoad`.  Safe: the bus answers with `BUS_BAD_ACCESS` (log
  entry 7). -/
  | accessNotAdmitted (bytes addr : Nat)
  /-- Stuck: an access while reset is asserted (R201, I7).  Raised by `hostStore`, `hostLoad` and
  `hostWait`.  Safe (log entry 7). -/
  | accessInReset
  /-- Stuck: a RECV to which no reply will come, "a hung read blocks indefinitely" (R159, I22).
  Raised by `hostReceive`.  Safe. -/
  | hungReceive
  deriving DecidableEq, Repr

/-- Why a step gives an instruction no meaning.  Every instruction of the table has one, so nothing
in this model raises it. -/
inductive Refusal where
  /-- The instruction has no meaning yet.  Safe. -/
  | notModelled (mnemonic : String)
  deriving DecidableEq, Repr

/-- The block's state (R37), and with it the second agent, the reset input and whose turn it is.
BUSY and FVALID are views of `pend` and `frame` (R26, R27, R37): see `State.busy`, `State.fvalid`. -/
structure State where
  /-- CRC_HI, WR's `crcHigh` (R22). -/
  crcHi : Byte
  /-- CRC_LO, WR's `crcLow` (R22). -/
  crcLo : Byte
  /-- FRAME[0..7], or *no value* until a frame command completes (R23). -/
  frame : Option Frame
  /-- PEND, the accepted command not yet completed, or *empty* (R26). -/
  pend : Option Instr
  /-- ERR (R28). -/
  err : Bool
  /-- ECODE, three bits (R28, R31). -/
  ecode : BitVec 3
  /-- SERR, sticky (R28). -/
  serr : Bool
  /-- Whether the reset input is being held asserted (R201; log entry 8). -/
  inReset : Bool
  /-- Whose step is taken next, then after that, and so on: the interleaving R60 and R61 leave open,
  as data.  When it is empty the core steps if it can, else the host (R206; log entry 3). -/
  turns : List Agent
  /-- The host, the second agent (R20, R38; log entry 2). -/
  host : HostSide
  deriving DecidableEq, Repr

/-- No program, no variables, nothing sent or received. -/
def HostSide.empty : HostSide where
  prog := []
  pos := 0
  draws := 0
  vars := []
  sent := []
  replies := []
  reply := none
  decoded := none
  transportFailed := false

/-- The state right after reset, every value from R36 and R200.  Reset has ended (R201).  That no
turn is fixed in advance and the host has no program is the model's own (log entry 19). -/
def State.reset : State where
  crcHi := 0xFF
  crcLo := 0xFF
  frame := none
  pend := none
  err := false
  ecode := 0
  serr := false
  inReset := false
  turns := []
  host := HostSide.empty

end Sys2Proof.Machine
end

