-- ==== Sys2Proof/Machine/Flags.lean ====
section
/-! DEFINITION. The flags BUSY and FVALID, the error codes, and the STATUS word (10_state.md R26-R31,
60_exceptions.md R170). -/

namespace Sys2Proof.Machine

/-- BUSY: "BUSY = 1 exactly when PEND is non-empty" (R26, R37). -/
def State.busy (s : State) : Bool := s.pend.isSome

/-- FVALID: the frame buffer holds a signed frame (R27, R37). -/
def State.fvalid (s : State) : Bool := s.frame.isSome

/-- The causes for which a CMD write is refused (R170). -/
inductive ErrorCause where
  /-- `decode(w) = ILLEGAL`. -/
  | illegal
  /-- A flash word with DUR = 0. -/
  | range
  /-- A CMD write while BUSY = 1. -/
  | overrun
  deriving DecidableEq, Repr

/-- The ECODE of an error cause; 0 is NONE and 4-7 are reserved (R170). -/
def errorCode : ErrorCause → BitVec 3
  | .illegal => 1
  | .range => 2
  | .overrun => 3

/-- A read of STATUS (R31): bit 0 BUSY, bit 1 FVALID, bit 2 ERR, bit 3 SERR, bits 6:4 ECODE, the rest
zero. -/
def statusWord (s : State) : Word :=
  0#25 ++ s.ecode ++ BitVec.ofBool s.serr ++ BitVec.ofBool s.err ++ BitVec.ofBool s.fvalid ++
    BitVec.ofBool s.busy

end Sys2Proof.Machine
end

