-- ==== Sys2Proof/Machine/Bytes.lean ====
section
/-! DEFINITION. The byte helpers of 00_scope.md R16. -/

namespace Sys2Proof.Machine

/-- `hi8(v) = (v >> 8) & 0xFF` (R16). -/
def hi8 (v : Half) : Byte := v.extractLsb' 8 8

/-- `lo8(v) = v & 0xFF` (R16). -/
def lo8 (v : Half) : Byte := v.extractLsb' 0 8

/-- `cat16(h, l) = (h << 8) | l` (R16). -/
def cat16 (h l : Byte) : Half := h ++ l

end Sys2Proof.Machine
end

