-- ==== Sys2Proof/Machine/CrcEngine.lean ====
section
/-! DEFINITION. The CRC Engine's pure functions (40_crc_engine.md R100-R106): the table-driven CRC the
block computes, and the generator and bitwise CRC the spec measures it against. -/

namespace Sys2Proof.Machine

/-- One step of the table-driven CRC for given tables `th` (feeding the new low half) and `tl` (feeding
the new high half): both new halves derive from the old pair (R14, R103, R216). -/
def crcStepWith (th tl : Byte → Byte) (acc : Byte × Byte) (b : Byte) : Byte × Byte :=
  (tl (acc.2 ^^^ b), acc.1 ^^^ th (acc.2 ^^^ b))

/-- `crcStep(hi, lo, b)` of R103, on the pair (hi, lo). -/
def crcStep (acc : Byte × Byte) (b : Byte) : Byte × Byte :=
  crcStepWith crcTableHigh crcTableLow acc b

/-- `computeCRC` of R105 for given tables: from (0xFF, 0xFF), one step a byte, no final XOR. -/
def computeCRCWith (th tl : Byte → Byte) (data : List Byte) : Half :=
  let acc := data.foldl (crcStepWith th tl) (0xFF, 0xFF)
  cat16 acc.1 acc.2

/-- `computeCRC(data)` of R105. -/
def computeCRC (data : List Byte) : Half := computeCRCWith crcTableHigh crcTableLow data

/-- One bit step of the reflected CRC with polynomial 0xA001 (R101, R106). -/
def crcBitStep (v : Half) : Half :=
  if v[0] then (v >>> 1) ^^^ 0xA001 else v >>> 1

/-- "repeat 8 times" of R101 and R106. -/
def crcEightBits (c : Half) : Half :=
  crcBitStep (crcBitStep (crcBitStep (crcBitStep
    (crcBitStep (crcBitStep (crcBitStep (crcBitStep c)))))))

/-- The table generator `T(i)` of R101. -/
def crcT (i : Byte) : Half := crcEightBits (i.setWidth 16)

/-- The linearity of R108 (a) as a property of a table: the entry at `i ^ j` is the exclusive OR of the
entries at `i` and `j`. -/
def XorLinear {n : Nat} (table : Byte → BitVec n) : Prop :=
  ∀ i j : Byte, table (i ^^^ j) = table i ^^^ table j

/-- `T(i)` recomputed from the eight entries `T(1), T(2), T(4), ..., T(0x80)`, those of the set bits of
`i`, as R108 lets a model do to check a transcription. -/
def crcTFromEight (i : Byte) : Half :=
  (List.range 8).foldl (fun acc k => if i.getLsbD k then acc ^^^ crcT (1#8 <<< k) else acc) 0

/-- The eight values that the entries of `CRCTableHigh` take (R108 (c)). -/
def crcTableHighValues : List Byte := [0x00, 0x01, 0x40, 0x41, 0x80, 0x81, 0xC0, 0xC1]

/-- `crcBitwise(d)` of R106. -/
def crcBitwise (data : List Byte) : Half :=
  data.foldl (fun c b => crcEightBits (c ^^^ b.setWidth 16)) 0xFFFF

end Sys2Proof.Machine
end

