-- ==== Sys2Proof/Machine/Operands.lean ====
section
/-! DEFINITION. From operands to frames (41_frame_assembler.md): the payload of every frame command and
the signing step.  Operands go in unchanged, unsigned and unscaled (R73, R74). -/

namespace Sys2Proof.Machine

/-- The action bytes of a relay command: ON = 0xFF, OFF = 0x00, FLIP = 0x55 (R9, R133). -/
def actionOn : Byte := 0xFF

/-- See `actionOn`. -/
def actionOff : Byte := 0x00

/-- See `actionOn`. -/
def actionFlip : Byte := 0x55

/-- The flash actions: FLASH_ON = 0x02, FLASH_OFF = 0x04 (R9, R134). -/
def flashActionOn : Byte := 0x02

/-- See `flashActionOn`. -/
def flashActionOff : Byte := 0x04

/-- `relayPayload(idx, act)` of R133. -/
def relayPayload (idx act : Byte) : Payload := #v[0x01, 0x05, 0x00, idx, act, 0x00]

/-- `flashPayload(fa, idx, dur)` of R134, the duration big-endian (R55b). -/
def flashPayload (fa idx : Byte) (dur : Half) : Payload :=
  #v[0x01, 0x05, fa, idx, hi8 dur, lo8 dur]

/-- `queryPayload` of R137. -/
def queryPayload : Payload := #v[0x01, 0x01, 0x00, 0x00, 0x00, 0x08]

/-- The payload of a frame command, as R205's completion step picks it; a CRC command has none. -/
def framePayload : Instr → Option Payload
  | .relayOn idx => some (relayPayload idx actionOn)
  | .relayOff idx => some (relayPayload idx actionOff)
  | .relayFlip idx => some (relayPayload idx actionFlip)
  | .flashOn idx dur => some (flashPayload flashActionOn idx dur)
  | .flashOff idx dur => some (flashPayload flashActionOff idx dur)
  | .stateQuery => some queryPayload
  | .crcInit => none
  | .crcUpd _ => none

/-- The signing step `sign(p)` of R120: the CRC of the six payload bytes, low byte first (R55c). -/
def sign (p : Payload) : Frame :=
  let c := computeCRC p.toList
  #v[p[0], p[1], p[2], p[3], p[4], p[5], lo8 c, hi8 c]

end Sys2Proof.Machine
end

