-- ==== Sys2Proof/Machine/Ops.lean ====
section
/-! DEFINITION. The block's shared operations: the error report (60_exceptions.md R172, this block's
one way of taking an exception), acceptance of a command (R171), what completion writes
(41_frame_assembler.md R121, 40_crc_engine.md R110, R111), clearing SERR (10_state.md R32) and the
reset event (70_reset_and_hazards.md R200). -/

namespace Sys2Proof.Machine

/-- `raise Error(code)`: "exactly ERR <- 1; ECODE <- code; SERR <- 1. Nothing else changes" (R172).
There is no trap, no handler and no return from one (R174, R178): ERR and ECODE are cleared by the
next `accept`, SERR by `clearStickyError` or reset. -/
def raiseError (c : ErrorCause) (s : State) : State :=
  { s with err := true, ecode := errorCode c, serr := true }

/-- An accepted command: `PEND <- c; BUSY <- 1; ERR <- 0; ECODE <- 0` (R122, R171). -/
def accept (i : Instr) (s : State) : State :=
  { s with pend := some i, err := false, ecode := 0 }

/-- Whether a command is `FlashOn(_, 0)` or `FlashOff(_, 0)` (R75, R171). -/
def durationZero : Instr → Bool
  | .flashOn _ dur => dur == 0
  | .flashOff _ dur => dur == 0
  | .relayOn _ => false
  | .relayOff _ => false
  | .relayFlip _ => false
  | .stateQuery => false
  | .crcInit => false
  | .crcUpd _ => false

/-- `issue(w)`, the acceptance check of a CMD write, in the priority OVERRUN, ILLEGAL, RANGE (R171,
R173).  The relay index is never checked (R74). -/
def issue (w : Word) (s : State) : State :=
  if s.busy then raiseError .overrun s
  else match decode w with
    | .error _ => raiseError .illegal s
    | .ok i => if durationZero i then raiseError .range s else accept i s

/-- The pair (CRC_HI, CRC_LO) (R22). -/
def State.acc (s : State) : Byte × Byte := (s.crcHi, s.crcLo)

/-- Completion of a CRC command: the accumulator takes `acc`, and `PEND <- empty; BUSY <- 0` (R110,
R111). -/
def completeCrc (acc : Byte × Byte) (s : State) : State :=
  { s with crcHi := acc.1, crcLo := acc.2, pend := none }

/-- Completion of a frame command whose payload is `p`: the writes of R121, in one step. -/
def completeFrame (p : Payload) (s : State) : State :=
  let f := sign p
  let c := cat16 f[7] f[6]
  { s with frame := some f, crcHi := hi8 c, crcLo := lo8 c, pend := none }

/-- `SERR <- 0` (R32). -/
def clearStickyError (s : State) : State := { s with serr := false }

/-- The reset event: every piece of the block's state takes its value of R36; a pending command is
discarded with no effect (R200). -/
def resetBlock (s : State) : State :=
  { s with
    crcHi := 0xFF, crcLo := 0xFF, frame := none, pend := none, err := false, ecode := 0, serr := false }

/-- Takes the turn at the head of the schedule, if one is fixed, away. -/
def popTurn (s : State) : State := { s with turns := s.turns.tail }

/-- The state in which the block holds the command word `w` and the core's turn is next: `w` has
been written to CMD while BUSY = 0 and no reset was held, by the acceptance check of R171 (log entry
4).  A word that check refuses is not held. -/
def loadCommandWord (w : Word) (s : State) : State :=
  { issue w { s with pend := none, inReset := false } with turns := .core :: s.turns }

end Sys2Proof.Machine
end

