-- ==== Sys2Proof/Machine/CrcStream.lean ====
section
/-! DEFINITION. The streaming CRC commands (40_crc_engine.md section 2) at the core's completion step
(70_reset_and_hazards.md R205). -/

namespace Sys2Proof.Machine

/-- CRC.INIT: `(CRC_HI, CRC_LO) <- (0xFF, 0xFF)` (R110). -/
def execCrcInit (s : State) : Host.Outcome State Fault Refusal :=
  .next (completeCrc (0xFF, 0xFF) s)

/-- CRC.UPD data: `(CRC_HI, CRC_LO) <- crcStep(CRC_HI, CRC_LO, DATA)`, from the accumulator as it
stands (R111, R113). -/
def execCrcUpd (data : Byte) (s : State) : Host.Outcome State Fault Refusal :=
  .next (completeCrc (crcStep s.acc data) s)

end Sys2Proof.Machine
end

