-- ==== Sys2Proof/Machine/Flash.lean ====
section
/-! DEFINITION. The flash commands (41_frame_assembler.md section 3): the effect of each at the core's
completion step (70_reset_and_hazards.md R205).  A duration of 0 does not come here: `issue` refuses
it with RANGE (60_exceptions.md R171), and completion has no check (R176; log entry 5). -/

namespace Sys2Proof.Machine

/-- FLASH.ON idx, dur, flash action 0x02 (R135). -/
def execFlashOn (idx : Byte) (dur : Half) (s : State) : Host.Outcome State Fault Refusal :=
  .next (completeFrame (flashPayload flashActionOn idx dur) s)

/-- FLASH.OFF idx, dur, flash action 0x04 (R136). -/
def execFlashOff (idx : Byte) (dur : Half) (s : State) : Host.Outcome State Fault Refusal :=
  .next (completeFrame (flashPayload flashActionOff idx dur) s)

end Sys2Proof.Machine
end

