-- ==== Sys2Proof/Machine/Query.lean ====
section
/-! DEFINITION. The state query (41_frame_assembler.md section 4) at the core's completion step
(70_reset_and_hazards.md R205). -/

namespace Sys2Proof.Machine

/-- STATEQ (R138). -/
def execStateQuery (s : State) : Host.Outcome State Fault Refusal :=
  .next (completeFrame queryPayload s)

end Sys2Proof.Machine
end

