-- ==== Sys2Proof/Machine/Relay.lean ====
section
/-! DEFINITION. The relay commands (41_frame_assembler.md section 2): the effect of each at the core's
completion step (70_reset_and_hazards.md R205).  Acceptance is shared by all commands: `issue`. -/

namespace Sys2Proof.Machine

/-- RELAY.ON idx, action ON = 0xFF (R130). -/
def execRelayOn (idx : Byte) (s : State) : Host.Outcome State Fault Refusal :=
  .next (completeFrame (relayPayload idx actionOn) s)

/-- RELAY.OFF idx, action OFF = 0x00 (R131). -/
def execRelayOff (idx : Byte) (s : State) : Host.Outcome State Fault Refusal :=
  .next (completeFrame (relayPayload idx actionOff) s)

/-- RELAY.FLIP idx, action FLIP = 0x55 (R132). -/
def execRelayFlip (idx : Byte) (s : State) : Host.Outcome State Fault Refusal :=
  .next (completeFrame (relayPayload idx actionFlip) s)

end Sys2Proof.Machine
end

