-- ==== Sys2Proof/Machine/Dispatch.lean ====
section
/-! DEFINITION. One arm per command: the case split of the core's completion step,
70_reset_and_hazards.md R205. -/

namespace Sys2Proof.Machine

def exec (i : Instr) (s : State) : Host.Outcome State Fault Refusal :=
  match i with
  | .relayOn idx => Sys2Proof.Machine.execRelayOn idx s
  | .relayOff idx => Sys2Proof.Machine.execRelayOff idx s
  | .relayFlip idx => Sys2Proof.Machine.execRelayFlip idx s
  | .flashOn idx dur => Sys2Proof.Machine.execFlashOn idx dur s
  | .flashOff idx dur => Sys2Proof.Machine.execFlashOff idx dur s
  | .stateQuery => Sys2Proof.Machine.execStateQuery s
  | .crcInit => Sys2Proof.Machine.execCrcInit s
  | .crcUpd data => Sys2Proof.Machine.execCrcUpd data s

end Sys2Proof.Machine
end

