-- ==== Sys2Proof/Config.lean ====
section
/-! DEFINITION. What the spec leaves to the platform or the implementation (R10): four open
parameters, each an opaque constant, so that a claim holds for every value of it (log entry 1); and the
free values of the host's side, opaque too, applied to a counter that State holds (log entry 13). -/

namespace Sys2Proof

/-- Which 32-byte slot of the host's address space holds the register window.  No value is
given anywhere (D2): opaque. -/
opaque Config.windowIndex : Nat

/-- `BASE`, the address of the register window: "it must be a multiple of 32" (R50, D2). -/
def Config.base : Nat := 32 * Config.windowIndex

/-- The kinds of answer R52 gives as examples for an access the block does not admit. -/
inductive BusResponse where
  | errorResponse
  | ignored (readValue : Word)
  deriving DecidableEq, Repr, Inhabited

/-- `BUS_BAD_ACCESS`, the bus response to a non-admitted access (R52, D3).  It belongs to the bus:
the model gives such an access no step, so nothing in the machine depends on it. -/
opaque Config.busBadAccess : BusResponse

/-- `RESET_KIND` (R201, D19). -/
inductive ResetKind where
  | synchronous
  | asynchronous
  deriving DecidableEq, Repr, Inhabited

/-- Whether reset acts synchronously to the block's clock.  In the model reset is one atomic step
(R200), so nothing depends on it. -/
opaque Config.resetKind : ResetKind

/-- `T_CMD` less one. -/
opaque Config.tCmdLessOne : Nat

/-- `T_CMD`, "cycles from command acceptance to completion, at least 1" (R10, R207, D10).  The model
has no time and "no rule of this spec depends on its value". -/
def Config.tCmd : Nat := Config.tCmdLessOne + 1

/-- What host variable `x` reads as before any assignment, at the host's `draw`-th move.  R158 states no
value: free (DESIGN CHOICE, log entry 13). -/
opaque Config.freeVariable (draw x : Nat) : Word

/-- `byte(f, k)` for a `k` beyond 7, `f0` and `f1` being the two words of `f`.  R34 and R158 state no
value: free (DESIGN CHOICE, log entry 13). -/
opaque Config.freeFrameByte (draw : Nat) (f0 f1 : Word) (k : Nat) : Byte

/-- The reply `r` before any has been received.  R155 and R158 state no value: free (DESIGN CHOICE, log
entry 13). -/
opaque Config.freeReply (draw : Nat) : List Byte

end Sys2Proof
end

