-- ==== Sys2Proof/Machine/HostVars.lean ====
section
/-! DEFINITION. The host's variables and expressions (45_host_side.md R158), and the decode of a reply
(R155). -/

namespace Sys2Proof.Machine

/-- The value of host variable `x`, if it has been assigned. -/
def getVar (x : Nat) : List (Nat × Word) → Option Word
  | [] => none
  | (y, u) :: rest => if x = y then some u else getVar x rest

/-- Assigns host variable `x`, keeping the list by rising variable number. -/
def setVar (x : Nat) (v : Word) : List (Nat × Word) → List (Nat × Word)
  | [] => [(x, v)]
  | (y, u) :: rest =>
    if x = y then (x, v) :: rest
    else if x < y then (x, v) :: (y, u) :: rest
    else (y, u) :: setVar x v rest

/-- Byte `k` of a frame as packed into the words FRAME0 and FRAME1: bits `8*(k mod 4)+7 : 8*(k mod 4)`
of word `k / 4` (R34).  A frame has no byte beyond 7. -/
def byteOfWords (f0 f1 : Word) (k : Nat) : Option Byte :=
  if k < 4 then some (f0.extractLsb' (8 * k) 8)
  else if k < 8 then some (f1.extractLsb' (8 * (k - 4)) 8)
  else none

/-- The value of host variable `x`: what was assigned to it last, else a free value (log entry 13). -/
def varValue (h : HostSide) (x : Nat) : Word := (getVar x h.vars).getD (Config.freeVariable h.draws x)

/-- `byte(f, k)` (R158): byte `k` of a frame, a free value where a frame has none (log entry 13). -/
def frameByteValue (h : HostSide) (f0 f1 : Word) (k : Nat) : Byte :=
  (byteOfWords f0 f1 k).getD (Config.freeFrameByte h.draws f0 f1 k)

/-- The value of a host expression. -/
def evalExpr (h : HostSide) : HostExpr → Word
  | .const v => v
  | .var x => varValue h x
  | .add a b => evalExpr h a + evalExpr h b
  | .sub a b => evalExpr h a - evalExpr h b
  | .bitAnd a b => evalExpr h a &&& evalExpr h b
  | .bitOr a b => evalExpr h a ||| evalExpr h b
  | .bitXor a b => evalExpr h a ^^^ evalExpr h b
  | .shiftLeft a n => evalExpr h a <<< n
  | .shiftRight a n => evalExpr h a >>> n
  | .frameByte f0 f1 k =>
    (frameByteValue h (evalExpr h f0) (evalExpr h f1) (evalExpr h k).toNat).setWidth 32

/-- The low bytes of eight expressions, as `SEND f0..f7` hands them over (R158). -/
def evalFrame (h : HostSide) (fs : Vector HostExpr 8) : Frame :=
  fs.map fun e => (evalExpr h e).extractLsb' 0 8

/-- The reply `r` of RECV: the one last received, else a free value (log entry 13). -/
def replyValue (h : HostSide) : List Byte := h.reply.getD (Config.freeReply h.draws)

/-- `decodeState(r)` of R155: the bits of reply byte 3, relay 1 first; "an implementer must check
length before reading byte 3".  No other byte is read. -/
def decodeState (r : List Byte) : DecodedReply :=
  match r[3]? with
  | none => .malformedResponse
  | some b3 => .relayStates (Vector.ofFn fun i : Fin 8 => b3[i])

/-- "prints as a JSON array of 8 booleans, index 0 = relay 1" (R156); that a malformed
reply prints nothing is DESIGN CHOICE (log entry 21), the spec being silent on it. -/
def jsonOf : DecodedReply → Option String
  | .malformedResponse => none
  | .relayStates v =>
    some ("[" ++ String.intercalate ", " (v.toList.map fun b => if b then "true" else "false") ++ "]")

end Sys2Proof.Machine
end

