-- ==== Sys2Proof/Machine/Window.lean ====
section
/-! DEFINITION. The register window (20_memory.md): which accesses are admitted, what a read of each
slot returns, what a write to each slot does, and the hazard reads. -/

namespace Sys2Proof.Machine

/-- The slot at byte offset `off` of the window: "`off` is a multiple of 4 in 0x00-0x1C" (R29, R52). -/
def slotAt (off : Nat) : Option Slot :=
  match off with
  | 0x00 => some .cmd
  | 0x04 => some .status
  | 0x08 => some .crc
  | 0x0C => some .frame0
  | 0x10 => some .frame1
  | 0x14 => some .reserved14
  | 0x18 => some .reserved18
  | 0x1C => some .reserved1C
  | _ => none

/-- The slot an access of `bytes` bytes at `addr` reaches, if the block admits it: 32 bits, at
`BASE + off`, aligned and inside the window (R50, R52). -/
def admitted (bytes addr : Nat) : Option Slot :=
  if bytes = 4 ∧ Config.base ≤ addr then slotAt (addr - Config.base) else none

/-- A read of CRC: `zext_32(cat16(CRC_HI, CRC_LO))` (R33). -/
def crcWord (s : State) : Word := 0#16 ++ s.crcHi ++ s.crcLo

/-- A read of FRAME0: FRAME[0..3], FRAME[0] lowest (R34). -/
def frameWord0 (f : Frame) : Word := f[3] ++ f[2] ++ f[1] ++ f[0]

/-- A read of FRAME1: FRAME[4..7], FRAME[4] lowest (R34). -/
def frameWord1 (f : Frame) : Word := f[7] ++ f[6] ++ f[5] ++ f[4]

/-- The frame buffer for a read of `slot`: "A model treats such a read as a fault, with no value" while
BUSY = 1 (R210), and "A model treats it as a fault" while the buffer holds no value (R211, R37).  Where
both hold, the first is named (log entry 6). -/
def readFrame (slot : Slot) (s : State) : Except Fault Frame :=
  if s.busy then .error (.readWhileBusy slot)
  else match s.frame with
    | none => .error (.readUnwrittenFrame slot)
    | some f => .ok f

/-- A 32-bit read of a slot.  Reads have no side effects (R54). -/
def busRead (slot : Slot) (s : State) : Except Fault Word :=
  match slot with
  | .cmd => .ok 0
  | .status => .ok (statusWord s)
  | .crc => if s.busy then .error (.readWhileBusy .crc) else .ok (crcWord s)
  | .frame0 => (readFrame .frame0 s).map frameWord0
  | .frame1 => (readFrame .frame1 s).map frameWord1
  | .reserved14 => .ok 0
  | .reserved18 => .ok 0
  | .reserved1C => .ok 0

/-- A write of `v` to STATUS: "if v[3] = 1 then SERR <- 0. Every other bit of v is ignored" (R32). -/
def writeStatus (v : Word) (s : State) : State :=
  if v[3] then clearStickyError s else s

/-- A 32-bit write of a slot: "Exactly two accesses have side effects" (R54), the rest are ignored
(R33, R34, R35). -/
def busWrite (slot : Slot) (v : Word) (s : State) : State :=
  match slot with
  | .cmd => issue v s
  | .status => writeStatus v s
  | .crc => s
  | .frame0 => s
  | .frame1 => s
  | .reserved14 => s
  | .reserved18 => s
  | .reserved1C => s

end Sys2Proof.Machine
end

