-- ==== Sys2Proof/Machine/HostSteps.lean ====
section
/-! DEFINITION. The host's step (10_state.md R20, 45_host_side.md R157, R158): one operation of its
program, of which only an access to the register window and the reset event touch the block. -/

namespace Sys2Proof.Machine

/-- The host moves to position `p` of its program, and its next move meets fresh free values. -/
def hostGoto (p : Nat) (s : State) : State :=
  { s with host := { s.host with pos := p, draws := s.host.draws + 1 } }

/-- The host goes on to its next operation. -/
def hostAdvance (s : State) : State := hostGoto (s.host.pos + 1) s

/-- The host assigns variable `x` and goes on. -/
def hostAssign (x : Nat) (v : Word) (s : State) : State :=
  hostAdvance { s with host := { s.host with vars := setVar x v s.host.vars } }

/-- `x <- e` (R158). -/
def hostCompute (x : Nat) (e : HostExpr) (s : State) : Host.Outcome State Fault Refusal :=
  .next (hostAssign x (evalExpr s.host e) s)

/-- `MemWrite(addr, bytes, v)` (R15): an admitted access writes its slot; any other has no step (R52),
and neither has an access while reset is asserted (R201). -/
def hostStore (bytes addr : Nat) (e : HostExpr) (s : State) : Host.Outcome State Fault Refusal :=
  if s.inReset then .fault .accessInReset
  else match admitted bytes addr with
    | none => .fault (.accessNotAdmitted bytes addr)
    | some slot => .next (hostAdvance (busWrite slot (evalExpr s.host e) s))

/-- `x <- MemRead(addr, bytes)` (R15). -/
def hostLoad (bytes addr x : Nat) (s : State) : Host.Outcome State Fault Refusal :=
  if s.inReset then .fault .accessInReset
  else match admitted bytes addr with
    | none => .fault (.accessNotAdmitted bytes addr)
    | some slot =>
      match busRead slot s with
      | .error r => .fault r
      | .ok v => .next (hostAssign x v s)

/-- `WAIT`: one read of STATUS; the host stays here while BUSY, bit 0, is 1 (R31,
R157; log entry 16). -/
def hostWait (s : State) : Host.Outcome State Fault Refusal :=
  if s.inReset then .fault .accessInReset
  else if (statusWord s)[0] then .next s
  else .next (hostAdvance s)

/-- `BNE x, v, label`: branch if host variable `x ≠ v` (R158). -/
def hostBranch (x : Nat) (e : HostExpr) (target : Nat) (s : State) : Host.Outcome State Fault Refusal :=
  if varValue s.host x ≠ evalExpr s.host e then .next (hostGoto target s) else .next (hostAdvance s)

/-- `SEND f0..f7`: eight bytes go to the transport, first byte first (R154). -/
def hostSend (fs : Vector HostExpr 8) (s : State) : Host.Outcome State Fault Refusal :=
  .next (hostAdvance { s with
    host := { s.host with sent := s.host.sent ++ [evalFrame s.host fs] } })

/-- `RECV -> r`: one read of "up to 1024 bytes" (R154).  A transport failure is "surfaced unchanged to
the invoking layer" with no retry: the host's program ends (R154, R160; log entry 11).  With no reply
to come the read hangs (R159, I22; log entry 15). -/
def hostReceive (s : State) : Host.Outcome State Fault Refusal :=
  match s.host.replies with
  | [] => .fault .hungReceive
  | .bytes bs :: rest =>
    .next (hostAdvance { s with host := { s.host with reply := some (bs.take 1024), replies := rest } })
  | .transportFailure :: rest =>
    .next (hostGoto s.host.prog.length
      { s with host := { s.host with transportFailed := true, replies := rest } })

/-- `v <- decodeState(r)` (R155). -/
def hostDecode (s : State) : Host.Outcome State Fault Refusal :=
  .next (hostAdvance { s with
    host := { s.host with decoded := some (decodeState (replyValue s.host)) } })

/-- The reset event as one atomic step (R200); it leaves reset released. -/
def hostReset (s : State) : Host.Outcome State Fault Refusal :=
  .next (hostAdvance { resetBlock s with inReset := false })

/-- Asserts the reset input: the block takes its reset values, and holds them (R200, R201). -/
def hostAssertReset (s : State) : Host.Outcome State Fault Refusal :=
  .next (hostAdvance { resetBlock s with inReset := true })

/-- Ends reset (log entry 8): "The first admitted access after reset ends sees the state of rule R200" (R201). -/
def hostReleaseReset (s : State) : Host.Outcome State Fault Refusal :=
  .next (hostAdvance { s with inReset := false })

/-- One operation of the host. -/
def hostOp (op : HostOp) (s : State) : Host.Outcome State Fault Refusal :=
  match op with
  | .store bytes addr e => hostStore bytes addr e s
  | .load bytes addr x => hostLoad bytes addr x s
  | .wait => hostWait s
  | .bne x e target => hostBranch x e target s
  | .assign x e => hostCompute x e s
  | .send fs => hostSend fs s
  | .receive => hostReceive s
  | .decodeReply => hostDecode s
  | .reset => hostReset s
  | .assertReset => hostAssertReset s
  | .releaseReset => hostReleaseReset s

/-- The operation the host comes to next, if its program has not ended. -/
def State.hostNext (s : State) : Option HostOp := s.host.prog[s.host.pos]?

/-- Whether an access has no step: reset is held (R201), or the block does not admit it (R52). -/
def accessStuck (bytes addr : Nat) (s : State) : Bool := s.inReset || (admitted bytes addr).isNone

/-- Whether the host has no step at `op`: a stuck access, or a RECV to which no reply will come (R52,
R201, R159, I22). -/
def opStuck (op : HostOp) (s : State) : Bool :=
  match op with
  | .store bytes addr _ => accessStuck bytes addr s
  | .load bytes addr _ => accessStuck bytes addr s
  | .wait => s.inReset
  | .receive => s.host.replies.isEmpty
  | .bne _ _ _ => false
  | .assign _ _ => false
  | .send _ => false
  | .decodeReply => false
  | .reset => false
  | .assertReset => false
  | .releaseReset => false

/-- Whether the host is stuck: "no step exists, so the host cannot go on" (93 section 1). -/
def State.hostStuck (s : State) : Bool :=
  match s.hostNext with
  | none => false
  | some op => opStuck op s

/-- The host's turn.  A host whose program has ended makes no access: nothing changes (R185; log
entry 12). -/
def hostTurn (s : State) : Host.Outcome State Fault Refusal :=
  match s.hostNext with
  | none => .next s
  | some op => hostOp op s

end Sys2Proof.Machine
end

