-- ==== Sys2Proof/Machine/Turns.lean ====
section
/-! DEFINITION. Who steps, and the core's step (10_state.md R20, 70_reset_and_hazards.md R205, R206). -/

namespace Sys2Proof.Machine

/-- The core's step: it completes the pending command, and "when PEND is empty the core has no step,
which is the idle state" (R205): a turn it is given then passes with nothing changed
(log entry 12). -/
def coreTurn (s : State) : Host.Outcome State Fault Refusal :=
  match s.pend with
  | none => .next s
  | some i => exec i s

/-- The agent that steps next: the one the schedule names, but that a stuck host has no step, so its turn
is the core's while a command is pending ("the step stays enabled until taken", R206; log entry 22).
Past the schedule's end the core steps while it can, which is the weak fairness of R206, else the host
(log entry 3). -/
def nextAgent (s : State) : Agent :=
  match s.turns with
  | .core :: _ => .core
  | .host :: _ => if s.busy && s.hostStuck then .core else .host
  | [] => if s.busy then .core else .host

/-- The step of one agent. -/
def agentTurn (a : Agent) (s : State) : Host.Outcome State Fault Refusal :=
  match a with
  | .core => coreTurn s
  | .host => hostTurn s

end Sys2Proof.Machine
end

