-- ==== Sys2Proof/Machine/Step.lean ====
section
/-! DEFINITION. One step of the machine: the next agent takes its turn (10_state.md R20, 20_memory.md
R60). -/

namespace Sys2Proof.Machine

/-- One step: "each step is indivisible" (R53). -/
def step (s : State) : Host.Outcome State Fault Refusal := agentTurn (nextAgent s) (popTurn s)

/-- `s` with the command word of `nbits` bits `w` in the place the core takes its next command from:
accepted into PEND, with the core's turn next, so that the very next step runs it.  It stands for
the host's CMD write of the word (log entry 4). -/
def State.withFetchWord (s : State) (nbits w : Nat) : State :=
  loadCommandWord (BitVec.ofNat 32 (w % 2 ^ nbits)) s

end Sys2Proof.Machine
end

