-- ==== Sys2Proof/Machine/Assembler.lean ====
section
/-! DEFINITION. How the host comes to a command word: the assembler (30_encoding.md R84), the
pseudo-instructions (R85), and the mapping of WR's command line (45_host_side.md R151-R154).  None of it
is carried out by the block (R150). -/

namespace Sys2Proof.Machine

/-- A line of assembly, its operands as the integers that were written (R84). -/
inductive AsmLine where
  | relayOn (idx : Nat)
  | relayOff (idx : Nat)
  | relayFlip (idx : Nat)
  | flashOn (idx dur : Nat)
  | flashOff (idx dur : Nat)
  | stateQuery
  | crcInit
  | crcUpd (data : Nat)
  deriving DecidableEq, Repr

/-- An `idx` or `data` operand: "integers 0-255", refused outside its range (R84). -/
def asmByte (n : Nat) : Option Byte := if n ≤ 255 then some (BitVec.ofNat 8 n) else none

/-- A `dur` operand: "an integer 1-65535", 0 refused too (R84). -/
def asmDuration (n : Nat) : Option Half :=
  if 1 ≤ n ∧ n ≤ 65535 then some (BitVec.ofNat 16 n) else none

/-- The instruction a line stands for, if its operands are in range (R84). -/
def AsmLine.instr : AsmLine → Option Instr
  | .relayOn idx => (asmByte idx).map .relayOn
  | .relayOff idx => (asmByte idx).map .relayOff
  | .relayFlip idx => (asmByte idx).map .relayFlip
  | .flashOn idx dur => (asmByte idx).bind fun i => (asmDuration dur).map (.flashOn i)
  | .flashOff idx dur => (asmByte idx).bind fun i => (asmDuration dur).map (.flashOff i)
  | .stateQuery => some .stateQuery
  | .crcInit => some .crcInit
  | .crcUpd data => (asmByte data).map .crcUpd

/-- The word a line assembles to (R84). -/
def assemble (l : AsmLine) : Option Word := l.instr.map encode

/-- The decimal digits, each at the place of its value. -/
def decimalDigits : List Char := "0123456789".toList

/-- The hexadecimal digits in both cases, the small letters 16 places after the capitals. -/
def hexadecimalDigits : List Char := "0123456789ABCDEF0123456789abcdef".toList

/-- The number a row of digits of base `base` writes, after `acc`; none if one is not in `digits`. -/
def digitsFrom (digits : List Char) (base : Nat) : Nat → List Char → Option Nat
  | acc, [] => some acc
  | acc, c :: rest =>
    let place := digits.idxOf c
    if place < digits.length then digitsFrom digits base (base * acc + place % base) rest else none

/-- An integer "in decimal or with a `0x` prefix" (R84). -/
def asmInteger : List Char → Option Nat
  | [] => none
  | '0' :: 'x' :: c :: rest => digitsFrom hexadecimalDigits 16 0 (c :: rest)
  | c :: rest => digitsFrom decimalDigits 10 0 (c :: rest)

/-- The words of a line: runs of characters other than blanks and commas (log entry 10). -/
def asmWords : List Char → List (List Char)
  | [] => []
  | c :: rest =>
    if c = ' ' ∨ c = ',' then [] :: asmWords rest
    else match asmWords rest with
      | [] => [[c]]
      | w :: ws => (c :: w) :: ws

/-- A line of assembly as text: a mnemonic and its operands (R84). -/
def parseLine (text : List Char) : Option AsmLine :=
  match (asmWords text).filter (fun w => !w.isEmpty) with
  | [m] =>
    if m = "STATEQ".toList then some .stateQuery
    else if m = "CRC.INIT".toList then some .crcInit
    else none
  | [m, a] => (asmInteger a).bind fun n =>
    if m = "RELAY.ON".toList then some (.relayOn n)
    else if m = "RELAY.OFF".toList then some (.relayOff n)
    else if m = "RELAY.FLIP".toList then some (.relayFlip n)
    else if m = "CRC.UPD".toList then some (.crcUpd n)
    else none
  | [m, a, b] => (asmInteger a).bind fun n => (asmInteger b).bind fun d =>
    if m = "FLASH.ON".toList then some (.flashOn n d)
    else if m = "FLASH.OFF".toList then some (.flashOff n d)
    else none
  | _ => none

/-- The pseudo-instructions (R85). -/
inductive Pseudo where
  | relayAllOn
  | relayAllOff
  | relayAllFlip
  | crcBlock (bs : List Byte)
  deriving DecidableEq, Repr

/-- The all-relays sentinel, the CLI's 256 after zero-basing (R17, 90_conflicts.md C3). -/
def allRelays : Byte := 0xFF

/-- The real commands a pseudo-instruction stands for (R85). -/
def Pseudo.expand : Pseudo → List Instr
  | .relayAllOn => [.relayOn allRelays]
  | .relayAllOff => [.relayOff allRelays]
  | .relayAllFlip => [.relayFlip allRelays]
  | .crcBlock bs => .crcInit :: bs.map .crcUpd

/-- `SW off, v` (R158). -/
def HostOp.sw (off : Nat) (v : HostExpr) : HostOp := .store 4 (Config.base + off) v

/-- `LW off -> x` (R158). -/
def HostOp.lw (off x : Nat) : HostOp := .load 4 (Config.base + off) x

/-- A command written to CMD, "followed by the host's completion wait" (R85). -/
def issueAndWait (i : Instr) : List HostOp := [.sw 0x00 (.const (encode i)), .wait]

/-- The host operations of a pseudo-instruction (R85). -/
def Pseudo.hostOps (p : Pseudo) : List HostOp := p.expand.flatMap issueAndWait

/-- The actions of WR's `relay` command (R151). -/
inductive CliAction where
  | on
  | off
  | flip
  deriving DecidableEq, Repr

/-- WR's command line after its arguments have been parsed (R151; the parsing itself is excluded, R6).
`flash` takes `on` as `true`, `off` as `false`. -/
inductive CliCommand where
  | relay (n : Nat) (a : CliAction)
  | flash (n : Nat) (on : Bool) (d : Nat)
  | state
  deriving DecidableEq, Repr

/-- A relay number of `relay`: 1-8, or 256 for all relays, zero-based; no other is issued (R151, R152). -/
def cliRelayIdx (n : Nat) : Option Byte :=
  if (1 ≤ n ∧ n ≤ 8) ∨ n = 256 then some (BitVec.ofNat 8 (n - 1)) else none

/-- A relay number of `flash`: 1-8 (R151, R152). -/
def cliFlashIdx (n : Nat) : Option Byte :=
  if 1 ≤ n ∧ n ≤ 8 then some (BitVec.ofNat 8 (n - 1)) else none

/-- A duration: outside 1-65535 "the host rejects" it, never truncating it (R153). -/
def cliDuration (d : Nat) : Option Half :=
  if 1 ≤ d ∧ d ≤ 65535 then some (BitVec.ofNat 16 d) else none

/-- The block command of a CLI command, or none where the host rejects it (R151-R153). -/
def CliCommand.instr : CliCommand → Option Instr
  | .relay n .on => (cliRelayIdx n).map .relayOn
  | .relay n .off => (cliRelayIdx n).map .relayOff
  | .relay n .flip => (cliRelayIdx n).map .relayFlip
  | .flash n true d => (cliFlashIdx n).bind fun i => (cliDuration d).map (.flashOn i)
  | .flash n false d => (cliFlashIdx n).bind fun i => (cliDuration d).map (.flashOff i)
  | .state => some .stateQuery

/-- The host's operations after a frame command has been issued: WAIT, check BUSY = 0, ERR = 0 and
FVALID = 1, read the frame, send its eight bytes in order, receive the reply (R154, R157); `after`
follows.  Variables: 0 STATUS, 1 its low three bits, 2 FRAME0, 3 FRAME1.  A failed check goes to
the position `fail` (log entry 18). -/
def sendFrameOps (fail : Nat) (after : List HostOp) : List HostOp :=
  [ .wait
  , .lw 0x04 0
  , .assign 1 (.bitAnd (.var 0) (.const 0x7))
  , .bne 1 (.const 0x2) fail
  , .lw 0x0C 2
  , .lw 0x10 3
  , .send (Vector.ofFn fun k : Fin 8 => .frameByte (.var 2) (.var 3) (.const (BitVec.ofNat 32 k)))
  , .receive ] ++ after

/-- The host program of a CLI command: one frame built, sent, and one reply received, which `state`
decodes (R151, R154, R155, R159). -/
def CliCommand.program (c : CliCommand) : Option (List HostOp) :=
  let after := match c with
    | .state => [HostOp.decodeReply]
    | .relay _ _ => []
    | .flash _ _ _ => []
  c.instr.map fun i => .sw 0x00 (.const (encode i)) :: sendFrameOps (9 + after.length) after

end Sys2Proof.Machine
end

