-- ==== Sys2Proof/Safety.lean ====
section
/-! DEFINITION. The invariant of the block and what a safe run is. -/

namespace Sys2Proof.Machine

/-- `f` is a frame the block produces: the signed payload of a frame command whose operands are in
range (30_encoding.md R82, 10_state.md R24). -/
def SignedFrame (f : Frame) : Prop :=
  ∃ i p, i.wellFormed = true ∧ framePayload i = some p ∧ f = sign p

/-- ERR and ECODE agree: ECODE is 0 when ERR = 0, and one of 1, 2, 3 when ERR = 1 (R28, R31, R170). -/
def ErrorConsistent (s : State) : Prop :=
  (s.err = false → s.ecode = 0) ∧ (s.err = true → s.ecode = 1 ∨ s.ecode = 2 ∨ s.ecode = 3)

/-- Every piece of the block's state is at its reset value (R36). -/
def BlockAtReset (s : State) : Prop :=
  s.crcHi = 0xFF ∧ s.crcLo = 0xFF ∧ s.frame = none ∧ s.pend = none ∧ s.err = false ∧ s.ecode = 0 ∧
    s.serr = false

/-- What holds of the block between any two steps. -/
structure Inv (s : State) : Prop where
  /-- A frame buffer that holds a value holds a signed frame (R23, R24). -/
  frameSigned : ∀ f, s.frame = some f → SignedFrame f
  /-- A pending command's operands are in range (R75, R176: "every accepted operand is in range"). -/
  pendWellFormed : ∀ i, s.pend = some i → i.wellFormed = true
  /-- See `ErrorConsistent`. -/
  errorConsistent : ErrorConsistent s
  /-- While reset is asserted the block holds its reset values (R200, R201). -/
  inResetAtReset : s.inReset = true → BlockAtReset s

/-- A run of `k` steps is safe when it neither commits a hazard read nor gets stuck (R186). -/
def SafeRun (k : Nat) (s : State) : Prop := ∃ t, Sys2Proof.core.run k s = .next t

/-- The block's state is the same in `s` and `t`: the rows of "–" in the write matrix (R39). -/
def BlockUnchanged (s t : State) : Prop :=
  t.crcHi = s.crcHi ∧ t.crcLo = s.crcLo ∧ t.frame = s.frame ∧ t.pend = s.pend ∧ t.err = s.err ∧
    t.ecode = s.ecode ∧ t.serr = s.serr

/-- The host steps next, and `op` is the operation it comes to. -/
def HostAbout (s : State) (op : HostOp) : Prop := nextAgent s = .host ∧ s.hostNext = some op

/-- The host writes the value `v` to the slot `slot` next, in an access the block admits while no reset
is held. -/
def HostWrites (s : State) (slot : Slot) (v : Word) : Prop :=
  s.inReset = false ∧ ∃ bytes addr e, HostAbout s (.store bytes addr e) ∧
    admitted bytes addr = some slot ∧ evalExpr s.host e = v

/-- The host reads the slot `slot` into variable `x` next, in an access the block admits while no reset
is held. -/
def HostReads (s : State) (slot : Slot) (x : Nat) : Prop :=
  s.inReset = false ∧ ∃ bytes addr, HostAbout s (.load bytes addr x) ∧ admitted bytes addr = some slot

/-- The host's next operation keeps the duties of R161, as far as the block can see them: it makes only
admitted accesses, none while reset is asserted, does not issue while BUSY = 1, and reads CRC,
FRAME0 and FRAME1 only when BUSY = 0, the last two only when FVALID = 1. -/
def HostDutyKept (s : State) : Prop :=
  match s.hostNext with
  | some (.store bytes addr _) =>
    s.inReset = false ∧ ∃ slot, admitted bytes addr = some slot ∧ (slot = .cmd → s.busy = false)
  | some (.load bytes addr _) =>
    s.inReset = false ∧ ∃ slot, admitted bytes addr = some slot ∧
      (slot = .crc → s.busy = false) ∧
      (slot = .frame0 ∨ slot = .frame1 → s.busy = false ∧ s.fvalid = true)
  | some .wait => s.inReset = false
  | _ => True

/-- The command words `ws` in order, each completed before the next is written (R112): a word is
written to CMD, then the core takes its turn. -/
def issueAndComplete : List Word → State → Host.Outcome State Fault Refusal
  | [], s => .next s
  | w :: ws, s =>
    match coreTurn (issue w s) with
    | .next t => issueAndComplete ws t
    | .fault r => .fault r
    | .refused r => .refused r

end Sys2Proof.Machine
end

