-- ==== Sys2Proof/Certificates/Slice0/Obligations.lean ====
section
/-! DEFINITION. What this model claims of the RelayFrame core, for the provers.  Each docstring names
the rule of spec/ it formalises. -/

open Sys2Proof Sys2Proof.Machine

/-! ## Encoding -/

/-- Decoding gives back every instruction, with every operand at every value: no bit of an encoding is
dropped (R77, R78). -/
def Obligations.DecodeOfEncodeIsIdentity : Prop :=
  ∀ i : Instr, decode (encode i) = .ok i

/-- A word that decodes is the word of what it decodes to: every legal word has one meaning and every
instruction one word (R71, R77). -/
def Obligations.EncodeOfDecodeIsIdentity : Prop :=
  ∀ (w : Word) (i : Instr), decode w = .ok i → encode i = w

/-- R77: a word encodes an instruction exactly when `(w & mask) = match`, its free fields being the
operands; no word matches two rows; and a flash word with DUR = 0 is refused with RANGE. -/
def Obligations.DecodeMatchesOpcodeTable : Prop :=
  (∀ (w : Word) (idx : Byte), decode w = .ok (.relayOn idx) ↔
    w &&& 0xFF00FFFF = 0x10000000 ∧ idx = w.extractLsb' 16 8) ∧
  (∀ (w : Word) (idx : Byte), decode w = .ok (.relayOff idx) ↔
    w &&& 0xFF00FFFF = 0x20000000 ∧ idx = w.extractLsb' 16 8) ∧
  (∀ (w : Word) (idx : Byte), decode w = .ok (.relayFlip idx) ↔
    w &&& 0xFF00FFFF = 0x30000000 ∧ idx = w.extractLsb' 16 8) ∧
  (∀ (w : Word) (idx : Byte) (dur : Half), decode w = .ok (.flashOn idx dur) ↔
    w &&& 0xFF000000 = 0x40000000 ∧ idx = w.extractLsb' 16 8 ∧ dur = w.extractLsb' 0 16) ∧
  (∀ (w : Word) (idx : Byte) (dur : Half), decode w = .ok (.flashOff idx dur) ↔
    w &&& 0xFF000000 = 0x50000000 ∧ idx = w.extractLsb' 16 8 ∧ dur = w.extractLsb' 0 16) ∧
  (∀ w : Word, decode w = .ok .stateQuery ↔ w &&& 0xFFFFFFFF = 0x60000000) ∧
  (∀ w : Word, decode w = .ok .crcInit ↔ w &&& 0xFFFFFFFF = 0x80000000) ∧
  (∀ (w : Word) (data : Byte), decode w = .ok (.crcUpd data) ↔
    w &&& 0xFFFFFF00 = 0x90000000 ∧ data = w.extractLsb' 0 8) ∧
  (∀ w : Word,
    (([(0x10000000, 0xFF00FFFF), (0x20000000, 0xFF00FFFF), (0x30000000, 0xFF00FFFF),
       (0x40000000, 0xFF000000), (0x50000000, 0xFF000000), (0x60000000, 0xFFFFFFFF),
       (0x80000000, 0xFFFFFFFF), (0x90000000, 0xFFFFFF00)] : List (Word × Word)).filter
      (fun row => w &&& row.2 = row.1)).length ≤ 1) ∧
  (∀ (w : Word) (s : State), s.busy = false →
    (w &&& 0xFF000000 = 0x40000000 ∨ w &&& 0xFF000000 = 0x50000000) →
    w.extractLsb' 0 16 = 0 →
    issue w s = { s with err := true, ecode := 2, serr := true })

/-- R79: the illegal words are the reserved opcodes 0x0, 0x7, 0xA-0xF and every word with a non-zero
must-be-zero bit; writing one raises ILLEGAL and has no other effect. -/
def Obligations.IllegalWordsAreTheReservedOnes : Prop :=
  ∀ w : Word,
    ((∃ e, decode w = .error e) ↔
      (w.extractLsb' 28 4 = 0x0 ∨ w.extractLsb' 28 4 = 0x7 ∨ 0xA ≤ (w.extractLsb' 28 4).toNat) ∨
      w.extractLsb' 24 4 ≠ 0 ∨
      ((w.extractLsb' 28 4 = 0x1 ∨ w.extractLsb' 28 4 = 0x2 ∨ w.extractLsb' 28 4 = 0x3) ∧
        w.extractLsb' 0 16 ≠ 0) ∨
      ((w.extractLsb' 28 4 = 0x6 ∨ w.extractLsb' 28 4 = 0x8) ∧ w.extractLsb' 0 24 ≠ 0) ∨
      (w.extractLsb' 28 4 = 0x9 ∧ w.extractLsb' 8 16 ≠ 0)) ∧
    ((∃ e, decode w = .error e) → ∀ s : State, s.busy = false →
      issue w s = { s with err := true, ecode := 1, serr := true })

/-- Words written out from the spec's encodings decode to what they stand for (R77, 95 sections 3-6). -/
def Obligations.SpecWordsDecode : Prop :=
  decode 0x10020000 = .ok (.relayOn 0x02) ∧
  decode 0x20070000 = .ok (.relayOff 0x07) ∧
  decode 0x30FF0000 = .ok (.relayFlip 0xFF) ∧
  decode 0x4003000A = .ok (.flashOn 0x03 0x000A) ∧
  decode 0x5007FFFF = .ok (.flashOff 0x07 0xFFFF) ∧
  decode 0x60000000 = .ok .stateQuery ∧
  decode 0x80000000 = .ok .crcInit ∧
  decode 0x900000AB = .ok (.crcUpd 0xAB)

/-- The assembler's word for every line: `match | (idx << 16) | dur` or `match | data`, an operand out
of its range refused (R84). -/
def Obligations.AssemblerWordsAndRanges : Prop :=
  ∀ idx dur : Nat,
    assemble (.relayOn idx) =
      (if idx ≤ 255 then some (0x10000000 ||| BitVec.ofNat 32 idx <<< 16) else none) ∧
    assemble (.relayOff idx) =
      (if idx ≤ 255 then some (0x20000000 ||| BitVec.ofNat 32 idx <<< 16) else none) ∧
    assemble (.relayFlip idx) =
      (if idx ≤ 255 then some (0x30000000 ||| BitVec.ofNat 32 idx <<< 16) else none) ∧
    assemble (.flashOn idx dur) =
      (if idx ≤ 255 ∧ 1 ≤ dur ∧ dur ≤ 65535 then
        some (0x40000000 ||| BitVec.ofNat 32 idx <<< 16 ||| BitVec.ofNat 32 dur) else none) ∧
    assemble (.flashOff idx dur) =
      (if idx ≤ 255 ∧ 1 ≤ dur ∧ dur ≤ 65535 then
        some (0x50000000 ||| BitVec.ofNat 32 idx <<< 16 ||| BitVec.ofNat 32 dur) else none) ∧
    assemble .stateQuery = some 0x60000000 ∧
    assemble .crcInit = some 0x80000000 ∧
    assemble (.crcUpd idx) =
      (if idx ≤ 255 then some (0x90000000 ||| BitVec.ofNat 32 idx) else none)

/-! ## The CRC engine -/

/-- The literal tables hold the bytes of the generator, the high-named one the LOW byte (R101, R102,
R18). -/
def Obligations.TablesHoldGeneratorBytes : Prop :=
  ∀ i : Byte, crcTableHigh i = lo8 (crcT i) ∧ crcTableLow i = hi8 (crcT i)

/-- R103: both new halves come from the old pair; equivalently, on the 16-bit value,
`(c >> 8) ^ T((c ^ b) & 0xFF)`. -/
def Obligations.CrcStepCommitsBothHalves : Prop :=
  ∀ hi lo b : Byte,
    crcStep (hi, lo) b = (crcTableLow (lo ^^^ b), hi ^^^ crcTableHigh (lo ^^^ b)) ∧
    cat16 (crcStep (hi, lo) b).1 (crcStep (hi, lo) b).2 =
      (cat16 hi lo >>> 8) ^^^ crcT (((cat16 hi lo ^^^ b.setWidth 16) &&& 0xFF).setWidth 8)

/-- R106: on every byte sequence the table-driven CRC is the bitwise CRC-16/MODBUS, whose check value
over "123456789" is 0x4B37. -/
def Obligations.TableCrcEqualsBitwiseCrc : Prop :=
  (∀ d : List Byte, computeCRC d = crcBitwise d) ∧
  computeCRC [0x31, 0x32, 0x33, 0x34, 0x35, 0x36, 0x37, 0x38, 0x39] = 0x4B37

/-- R107: only the tables of R102 agree with the bitwise CRC on every one-byte sequence; swapped, they
give 0xC1ED instead of 0x3A8C for the payload of RELAY.ON 0. -/
def Obligations.CrcTablesAreUnique : Prop :=
  (∀ th tl : Byte → Byte, (∀ b : Byte, computeCRCWith th tl [b] = crcBitwise [b]) →
    th = crcTableHigh ∧ tl = crcTableLow) ∧
  computeCRCWith crcTableLow crcTableHigh [0x01, 0x05, 0x00, 0x00, 0xFF, 0x00] = 0xC1ED ∧
  computeCRC [0x01, 0x05, 0x00, 0x00, 0xFF, 0x00] = 0x3A8C

/-- R108: the generator and both tables are linear over exclusive OR, T(0) = 0, and the high-named
table holds eight values only; so the generator, and with it both tables, can be recomputed from the
eight entries T(1), T(2), T(4), ..., T(0x80). -/
def Obligations.CrcTablesAreLinear : Prop :=
  XorLinear crcT ∧ XorLinear crcTableHigh ∧ XorLinear crcTableLow ∧
  crcT 0 = 0 ∧
  (∀ i : Byte, crcTableHigh i ∈ crcTableHighValues) ∧
  (∀ i : Byte, crcTFromEight i = crcT i ∧
    crcTableHigh i = lo8 (crcTFromEight i) ∧ crcTableLow i = hi8 (crcTFromEight i))

/-- R109: a sequence followed by its own CRC, low byte first, has CRC 0; so has a signed frame; the CRC
recomputed from its first six bytes is `(frame[7] << 8) | frame[6]`; and for any eight bytes the two
tests agree. -/
def Obligations.CrcResidueIsZero : Prop :=
  (∀ d : List Byte, computeCRC (d ++ [lo8 (computeCRC d), hi8 (computeCRC d)]) = 0) ∧
  (∀ p : Payload, computeCRC (sign p).toList = 0 ∧
    computeCRC ((sign p).toList.take 6) = cat16 (sign p)[7] (sign p)[6]) ∧
  (∀ f : Frame, computeCRC f.toList = 0 ↔ computeCRC (f.toList.take 6) = cat16 f[7] f[6])

/-- R112: CRC.INIT and then CRC.UPD of each byte in order, each completed before the next is written,
leave the CRC of the bytes in the CRC register. -/
def Obligations.StreamingEqualsTheFunction : Prop :=
  ∀ (bs : List Byte) (s : State), s.busy = false →
    ∃ t, issueAndComplete (encode .crcInit :: bs.map (fun b => encode (.crcUpd b))) s = .next t ∧
      busRead .crc t = .ok ((computeCRC bs).setWidth 32)

/-! ## What the commands do -/

/-- R121: what completing a frame command with payload `p` writes, in one step, and that the CRC
register then reads the payload's CRC; everything else keeps its value. -/
def Obligations.FrameCommandCompletionWrites : Prop :=
  ∀ (i : Instr) (p : Payload) (s : State), framePayload i = some p →
    ∃ t, exec i s = .next t ∧
      t = { s with frame := some (sign p), crcHi := (sign p)[7], crcLo := (sign p)[6], pend := none } ∧
      t.fvalid = true ∧ t.busy = false ∧
      busRead .crc t = .ok ((cat16 (sign p)[7] (sign p)[6]).setWidth 32)

/-- RELAY.ON, RELAY.OFF and RELAY.FLIP complete, for every index in every state, with the frame
01 05 00 idx action 00 and its CRC; nothing else changes (R121, R130-R133). -/
def Obligations.RelayCommandsBuildTheirFrames : Prop :=
  ∀ (idx : Byte) (s : State),
    (let crc := computeCRC [0x01, 0x05, 0x00, idx, 0xFF, 0x00]
     exec (.relayOn idx) s = .next { s with
       frame := some #v[0x01, 0x05, 0x00, idx, 0xFF, 0x00, lo8 crc, hi8 crc],
       crcHi := hi8 crc, crcLo := lo8 crc, pend := none }) ∧
    (let crc := computeCRC [0x01, 0x05, 0x00, idx, 0x00, 0x00]
     exec (.relayOff idx) s = .next { s with
       frame := some #v[0x01, 0x05, 0x00, idx, 0x00, 0x00, lo8 crc, hi8 crc],
       crcHi := hi8 crc, crcLo := lo8 crc, pend := none }) ∧
    (let crc := computeCRC [0x01, 0x05, 0x00, idx, 0x55, 0x00]
     exec (.relayFlip idx) s = .next { s with
       frame := some #v[0x01, 0x05, 0x00, idx, 0x55, 0x00, lo8 crc, hi8 crc],
       crcHi := hi8 crc, crcLo := lo8 crc, pend := none })

/-- FLASH.ON and FLASH.OFF complete, for every index and every duration the block accepts, with the
frame 01 05 action idx and the duration big-endian (R55, R121, R134-R136).  That a duration of 0 is
refused is `CommandWriteIsAcceptedOrRefused`. -/
def Obligations.FlashCommandsBuildTheirFrames : Prop :=
  ∀ (idx : Byte) (dur : Half) (s : State), dur ≠ 0 →
    (let crc := computeCRC [0x01, 0x05, 0x02, idx, dur.extractLsb' 8 8, dur.extractLsb' 0 8]
     exec (.flashOn idx dur) s = .next { s with
       frame := some #v[0x01, 0x05, 0x02, idx, dur.extractLsb' 8 8, dur.extractLsb' 0 8,
         lo8 crc, hi8 crc],
       crcHi := hi8 crc, crcLo := lo8 crc, pend := none }) ∧
    (let crc := computeCRC [0x01, 0x05, 0x04, idx, dur.extractLsb' 8 8, dur.extractLsb' 0 8]
     exec (.flashOff idx dur) s = .next { s with
       frame := some #v[0x01, 0x05, 0x04, idx, dur.extractLsb' 8 8, dur.extractLsb' 0 8,
         lo8 crc, hi8 crc],
       crcHi := hi8 crc, crcLo := lo8 crc, pend := none })

/-- R139: STATEQ completes with the one constant frame 01 01 00 00 00 08 3D CC, the CRC of whose
payload is 0xCC3D, reached through the steps the rule lists. -/
def Obligations.StateQueryFrameIsConstant : Prop :=
  (∀ s : State, exec .stateQuery s = .next { s with
    frame := some #v[0x01, 0x01, 0x00, 0x00, 0x00, 0x08, 0x3D, 0xCC],
    crcHi := 0xCC, crcLo := 0x3D, pend := none }) ∧
  computeCRC queryPayload.toList = 0xCC3D ∧
  crcStep (0xFF, 0xFF) 0x01 = (0x80, 0x7E) ∧ crcStep (0x80, 0x7E) 0x01 = (0xE0, 0xC1) ∧
  crcStep (0xE0, 0xC1) 0x00 = (0x90, 0x21) ∧ crcStep (0x90, 0x21) 0x00 = (0x18, 0x50) ∧
  crcStep (0x18, 0x50) 0x00 = (0x3C, 0x18) ∧ crcStep (0x3C, 0x18) 0x08 = (0xCC, 0x3D)

/-- CRC.INIT and CRC.UPD complete in every state: the accumulator becomes 0xFFFF, or takes one update
step from the value it holds, and nothing but PEND changes with it (R103, R110, R111). -/
def Obligations.CrcCommandsUpdateTheAccumulator : Prop :=
  ∀ (data : Byte) (s : State),
    exec .crcInit s = .next { s with crcHi := 0xFF, crcLo := 0xFF, pend := none } ∧
    exec (.crcUpd data) s = .next { s with
      crcHi := crcTableLow (s.crcLo ^^^ data),
      crcLo := s.crcHi ^^^ crcTableHigh (s.crcLo ^^^ data),
      pend := none }

/-- The frame of every command at once: completing it changes CRC_HI, CRC_LO and PEND, a frame command
the frame buffer too, and nothing else (R39). -/
def Obligations.CompletionFrame : Prop :=
  ∀ (i : Instr) (s t : State), exec i s = .next t →
    t.pend = none ∧ t.err = s.err ∧ t.ecode = s.ecode ∧ t.serr = s.serr ∧ t.inReset = s.inReset ∧
    t.turns = s.turns ∧ t.host = s.host ∧
    (i = .crcInit ∨ (∃ d, i = .crcUpd d) → t.frame = s.frame)

/-- R113, the second half: a frame command's own frame and CRC never depend on what the accumulator, or
anything else of the state, held. -/
def Obligations.FrameIgnoresTheAccumulator : Prop :=
  ∀ (i : Instr) (s s' t t' : State), (∃ p, framePayload i = some p) →
    exec i s = .next t → exec i s' = .next t' →
    t.frame = t'.frame ∧ t.crcHi = t'.crcHi ∧ t.crcLo = t'.crcLo

/-- Every frame a completed frame command leaves carries, low byte first, the bitwise CRC-16/MODBUS of
its own first six bytes (R24, R106, R120, R141). -/
def Obligations.CompletedFrameCarriesStandardCrc : Prop :=
  ∀ (i : Instr) (p : Payload) (s : State), framePayload i = some p →
    ∃ t f, exec i s = .next t ∧ t.frame = some f ∧
      f[6] = lo8 (crcBitwise [f[0], f[1], f[2], f[3], f[4], f[5]]) ∧
      f[7] = hi8 (crcBitwise [f[0], f[1], f[2], f[3], f[4], f[5]])

/-- R82: the frames the block produces are exactly these three shapes, with their CRC. -/
def Obligations.SignedFramesAreTheThreeShapes : Prop :=
  ∀ f : Frame, SignedFrame f ↔
    cat16 f[7] f[6] = computeCRC [f[0], f[1], f[2], f[3], f[4], f[5]] ∧
    ((f[0] = 0x01 ∧ f[1] = 0x05 ∧ f[2] = 0x00 ∧ (f[4] = 0xFF ∨ f[4] = 0x00 ∨ f[4] = 0x55) ∧
        f[5] = 0x00) ∨
      (f[0] = 0x01 ∧ f[1] = 0x05 ∧ (f[2] = 0x02 ∨ f[2] = 0x04) ∧
        1 ≤ (cat16 f[4] f[5]).toNat) ∨
      (f[0] = 0x01 ∧ f[1] = 0x01 ∧ f[2] = 0x00 ∧ f[3] = 0x00 ∧ f[4] = 0x00 ∧ f[5] = 0x08))

/-- R83: byte 1 and byte 2 tell the frames apart, and two different frame commands never produce the
same payload. -/
def Obligations.PayloadsTellCommandsApart : Prop :=
  (∀ (i j : Instr) (p : Payload), framePayload i = some p → framePayload j = some p → i = j) ∧
  (∀ (i : Instr) (p : Payload), framePayload i = some p →
    (p[1] = 0x01 ↔ i = .stateQuery) ∧
    (p[1] = 0x05 ∧ p[2] = 0x00 ↔
      ∃ idx, i = .relayOn idx ∨ i = .relayOff idx ∨ i = .relayFlip idx) ∧
    (p[1] = 0x05 ∧ (p[2] = 0x02 ∨ p[2] = 0x04) ↔
      ∃ idx dur, i = .flashOn idx dur ∨ i = .flashOff idx dur) ∧
    ((∃ idx, i = .relayOn idx) ↔ p[1] = 0x05 ∧ p[2] = 0x00 ∧ p[4] = 0xFF) ∧
    ((∃ idx, i = .relayOff idx) ↔ p[1] = 0x05 ∧ p[2] = 0x00 ∧ p[4] = 0x00) ∧
    ((∃ idx, i = .relayFlip idx) ↔ p[1] = 0x05 ∧ p[2] = 0x00 ∧ p[4] = 0x55) ∧
    ((∃ idx dur, i = .flashOn idx dur) ↔ p[1] = 0x05 ∧ p[2] = 0x02) ∧
    ((∃ idx dur, i = .flashOff idx dur) ↔ p[1] = 0x05 ∧ p[2] = 0x04))

/-! ## Acceptance and errors -/

/-- R171, R172, R173: the acceptance check of a CMD write, as one step of the host: OVERRUN while
BUSY = 1, then ILLEGAL, then RANGE, each changing only ERR, ECODE and SERR; otherwise the command is
accepted.  The rule's two examples of priority stand at the end.  (`turns`, `pos` and `draws` are the
model's own fields, log entries 2, 3 and 13.) -/
def Obligations.CommandWriteIsAcceptedOrRefused : Prop :=
  (∀ (s : State) (w : Word), HostWrites s .cmd w →
    let u := { s with
      turns := s.turns.tail
      host := { s.host with pos := s.host.pos + 1, draws := s.host.draws + 1 } }
    (s.busy = true → step s = .next { u with err := true, ecode := 3, serr := true }) ∧
    (s.busy = false → (∃ e, decode w = .error e) →
      step s = .next { u with err := true, ecode := 1, serr := true }) ∧
    (∀ idx, s.busy = false → (decode w = .ok (.flashOn idx 0) ∨ decode w = .ok (.flashOff idx 0)) →
      step s = .next { u with err := true, ecode := 2, serr := true }) ∧
    (∀ i, s.busy = false → decode w = .ok i →
      (∀ idx, i ≠ .flashOn idx 0 ∧ i ≠ .flashOff idx 0) →
      step s = .next { u with pend := some i, err := false, ecode := 0 })) ∧
  (∃ e, decode 0x41000000 = .error e) ∧ (∃ e, decode 0x70000000 = .error e)

/-- R74: every relay index is accepted, in every command that has one, and reaches FRAME[3] unchanged;
the host's relay numbers 1-8 are the indices 0-7, and its 256 is written as 0xFF. -/
def Obligations.EveryRelayIndexIsEmbedded : Prop :=
  (∀ (idx : Byte) (dur : Half) (s : State), s.busy = false → dur ≠ 0 →
    ∀ i ∈ ([.relayOn idx, .relayOff idx, .relayFlip idx, .flashOn idx dur, .flashOff idx dur] :
      List Instr),
      ∃ t f, issueAndComplete [encode i] s = .next t ∧ t.err = false ∧ t.frame = some f ∧
        f[3] = idx) ∧
  (∀ (n : Nat) (idx : Byte), idx.toNat ≤ 7 → (cliRelayIdx n = some idx ↔ n = idx.toNat + 1)) ∧
  cliRelayIdx 256 = some 0xFF

/-! ## The register window -/

/-- R31: every field of a STATUS read, at any time; reserved bits read as zero, and ECODE is 0 when
ERR = 0 in every state that meets the invariant. -/
def Obligations.StatusReadShowsEveryFlag : Prop :=
  ∀ s : State, ∃ w : Word, busRead .status s = .ok w ∧
    w[0] = s.busy ∧ w[1] = s.fvalid ∧ w[2] = s.err ∧ w[3] = s.serr ∧
    w.extractLsb' 4 3 = s.ecode ∧ w.extractLsb' 7 25 = 0 ∧
    (Inv s → w[2] = false → w.extractLsb' 4 3 = 0)

/-- R32: a STATUS write clears SERR if its bit 3 is set and does nothing else, also while BUSY = 1; a
STATUS read has no side effect. -/
def Obligations.StatusWriteClearsOnlySerr : Prop :=
  (∀ (s : State) (v : Word), HostWrites s .status v →
    step s = .next { s with
      serr := if v[3] then false else s.serr,
      turns := s.turns.tail
      host := { s.host with pos := s.host.pos + 1, draws := s.host.draws + 1 } }) ∧
  (∀ (s : State) (x : Nat), HostReads s .status x →
    ∃ t, step s = .next t ∧ BlockUnchanged s t)

/-- R33: the CRC register, read while BUSY = 0, returns the accumulator zero-extended; a write to it is
ignored; a read while BUSY = 1 is a fault (R210). -/
def Obligations.CrcReadReturnsTheAccumulator : Prop :=
  (∀ s : State, s.busy = false →
    ∃ w : Word, busRead .crc s = .ok w ∧ w = (cat16 s.crcHi s.crcLo).setWidth 32 ∧
      w.extractLsb' 8 8 = s.crcHi ∧ w.extractLsb' 0 8 = s.crcLo ∧ w.extractLsb' 16 16 = 0) ∧
  (∀ (s : State) (v : Word), busWrite .crc v s = s) ∧
  (∀ s : State, s.busy = true → busRead .crc s = .error (.readWhileBusy .crc))

/-- R34: FRAME0 and FRAME1, read while FVALID = 1 and BUSY = 0, hold frame byte `k` at bits
`8*(k mod 4)+7 : 8*(k mod 4)` of word `k / 4`; writes are ignored; the other reads are faults. -/
def Obligations.FrameReadsPackTheFrame : Prop :=
  (∀ (s : State) (f : Frame), s.busy = false → s.frame = some f →
    ∃ w0 w1 : Word, busRead .frame0 s = .ok w0 ∧ busRead .frame1 s = .ok w1 ∧
      w0 = f[0].setWidth 32 ||| f[1].setWidth 32 <<< 8 ||| f[2].setWidth 32 <<< 16 |||
        f[3].setWidth 32 <<< 24 ∧
      w1 = f[4].setWidth 32 ||| f[5].setWidth 32 <<< 8 ||| f[6].setWidth 32 <<< 16 |||
        f[7].setWidth 32 <<< 24 ∧
      (∀ k : Fin 8, (if k.val / 4 = 0 then w0 else w1).extractLsb' (8 * (k.val % 4)) 8 = f[k])) ∧
  (∀ (s : State) (v : Word), busWrite .frame0 v s = s ∧ busWrite .frame1 v s = s) ∧
  (∀ s : State, s.busy = true ∨ s.fvalid = false →
    (∃ r, busRead .frame0 s = .error r) ∧ (∃ r, busRead .frame1 s = .error r))

/-- R210 and R211: a host's read of CRC, FRAME0 or FRAME1 while BUSY = 1, and of FRAME0 or FRAME1 while
FVALID = 0, has no next state but a fault; STATUS may be read at any time, and CRC whenever
BUSY = 0.  Which of the two names a frame read has where both causes hold, BUSY's, is the model's
choice (DESIGN CHOICE, log entry 6). -/
def Obligations.HazardReadsFault : Prop :=
  (∀ (s : State) (slot : Slot) (x : Nat), HostReads s slot x → s.busy = true →
    slot = .crc ∨ slot = .frame0 ∨ slot = .frame1 → step s = .fault (.readWhileBusy slot)) ∧
  (∀ (s : State) (slot : Slot) (x : Nat), HostReads s slot x → s.busy = false → s.fvalid = false →
    slot = .frame0 ∨ slot = .frame1 → step s = .fault (.readUnwrittenFrame slot)) ∧
  (∀ (s : State) (x : Nat), HostReads s .status x → ∃ t, step s = .next t) ∧
  (∀ (s : State) (x : Nat), HostReads s .crc x → s.busy = false → ∃ t, step s = .next t)

/-- R35 and the reads of R30: CMD and the reserved offsets read as zero, and writes to the reserved
offsets are ignored. -/
def Obligations.ReservedSlotsReadZero : Prop :=
  ∀ (s : State) (v : Word), busRead .cmd s = .ok 0 ∧
    slotAt 0x14 = some .reserved14 ∧ slotAt 0x18 = some .reserved18 ∧
    slotAt 0x1C = some .reserved1C ∧
    busRead .reserved14 s = .ok 0 ∧ busRead .reserved18 s = .ok 0 ∧ busRead .reserved1C s = .ok 0 ∧
    busWrite .reserved14 v s = s ∧ busWrite .reserved18 v s = s ∧ busWrite .reserved1C v s = s

/-- R52: the admitted accesses are the 32-bit ones at `BASE + off` with `off` a multiple of 4 in
0x00-0x1C, each offset being the register R29 and R50 assign it; any other read or write leaves the host stuck, with no next state.  That the stuck state is
written as a named fault is the model's reading (DEDUCED, log entry 7).  While a command is pending
the core still has its step: `StuckHostLetsTheCoreComplete`. -/
def Obligations.OnlyWindowAccessesAreAdmitted : Prop :=
  (∀ bytes addr : Nat,
    (∃ slot, admitted bytes addr = some slot) ↔
      bytes = 4 ∧ ∃ off, addr = Config.base + off ∧ off % 4 = 0 ∧ off ≤ 0x1C) ∧
  (∀ bytes addr : Nat, (∃ slot, admitted bytes addr = some slot) →
    addr % 4 = 0 ∧ Config.base ≤ addr ∧ addr < Config.base + 32) ∧
  (admitted 4 (Config.base + 0x00) = some .cmd ∧ admitted 4 (Config.base + 0x04) = some .status ∧
    admitted 4 (Config.base + 0x08) = some .crc ∧ admitted 4 (Config.base + 0x0C) = some .frame0 ∧
    admitted 4 (Config.base + 0x10) = some .frame1 ∧
    admitted 4 (Config.base + 0x14) = some .reserved14 ∧
    admitted 4 (Config.base + 0x18) = some .reserved18 ∧
    admitted 4 (Config.base + 0x1C) = some .reserved1C) ∧
  (∀ (s : State) (bytes addr : Nat) (e : HostExpr), s.inReset = false →
    HostAbout s (.store bytes addr e) → admitted bytes addr = none → step s = .fault (.accessNotAdmitted bytes addr)) ∧
  (∀ (s : State) (bytes addr x : Nat), s.inReset = false → HostAbout s (.load bytes addr x) →
    admitted bytes addr = none → step s = .fault (.accessNotAdmitted bytes addr))

/-- R54: reads have no side effects, so a register read twice gives the same value; a write to CMD
issues a command and a write to STATUS with bit 3 set clears SERR, and no other write has a side
effect; a word written to CMD twice issues two commands, the second refused with OVERRUN while the
first is pending. -/
def Obligations.ReadsHaveNoSideEffects : Prop :=
  (∀ (s t : State) (slot : Slot) (x : Nat), HostReads s slot x → step s = .next t →
    BlockUnchanged s t ∧ t.inReset = s.inReset ∧ busRead slot t = busRead slot s ∧
    ∃ v, busRead slot s = .ok v ∧ getVar x t.host.vars = some v) ∧
  (∀ (s : State) (w : Word), HostWrites s .cmd w →
    ∃ t, step s = .next t ∧ BlockUnchanged (issue w s) t) ∧
  (∀ (s : State) (v : Word), HostWrites s .status v → v[3] = true →
    ∃ t, step s = .next t ∧ BlockUnchanged { s with serr := false } t) ∧
  (∀ (s : State) (slot : Slot) (v : Word), HostWrites s slot v → slot ≠ .cmd →
    (slot = .status → v[3] = false) → ∃ t, step s = .next t ∧ BlockUnchanged s t) ∧
  (∀ (s : State) (w : Word) (i : Instr), s.busy = false → decode w = .ok i → i.wellFormed = true →
    issue w s = { s with pend := some i, err := false, ecode := 0 } ∧
    issue w (issue w s) =
      { s with pend := some i, err := true, ecode := 3, serr := true })

/-! ## Reset, turns and the step -/

/-- R200: the reset event gives every piece of the block's state its reset value, from any state, a
pending command discarded with no effect. -/
def Obligations.ResetSetsEveryPieceOfState : Prop :=
  ∀ s : State, HostAbout s .reset →
    step s = .next { s with
      crcHi := 0xFF, crcLo := 0xFF, frame := none, pend := none, err := false, ecode := 0,
      serr := false, inReset := false, turns := s.turns.tail,
      host := { s.host with pos := s.host.pos + 1, draws := s.host.draws + 1 } }

/-- R201: while reset is asserted an access has no step; once it ends, the state is that of R200.  The
operations that assert, hold and release reset are the model's (DESIGN CHOICE, log entry 8), and so
are the form of the stuck state as a named fault and the name of one that is also not admitted (log
entry 7). -/
def Obligations.AccessInResetIsStuck : Prop :=
  (∀ s : State, HostAbout s .assertReset →
    ∃ t, step s = .next t ∧ BlockAtReset t ∧ t.inReset = true) ∧
  (∀ (s : State) (bytes addr : Nat) (e : HostExpr), s.inReset = true →
    HostAbout s (.store bytes addr e) → step s = .fault .accessInReset) ∧
  (∀ (s : State) (bytes addr x : Nat), s.inReset = true → HostAbout s (.load bytes addr x) →
    step s = .fault .accessInReset) ∧
  (∀ s : State, s.inReset = true → HostAbout s .wait → step s = .fault .accessInReset) ∧
  (∀ s : State, Inv s → s.inReset = true → HostAbout s .releaseReset →
    ∃ t, step s = .next t ∧ BlockAtReset t ∧ t.inReset = false)

/-- A step of the core runs the pending instruction: it is `exec` of it, once the turn is taken (R205). -/
def Obligations.StepRunsThePendingCommand : Prop :=
  ∀ (s : State) (i : Instr), s.pend = some i → nextAgent s = .core →
    step s = exec i { s with turns := s.turns.tail }

/-- From a word to its effect: a well-formed instruction's word written to CMD while BUSY = 0 is
latched, and the core's next turn runs exactly that instruction (R26, R171, R205). -/
def Obligations.WrittenCommandRunsAtCoreTurn : Prop :=
  ∀ (s : State) (i : Instr) (rest : List Agent), i.wellFormed = true → s.busy = false →
    HostWrites s .cmd (encode i) → s.turns = .host :: .core :: rest →
    ∃ t, step s = .next t ∧ t.pend = some i ∧ t.err = false ∧ t.ecode = 0 ∧
      t.crcHi = s.crcHi ∧ t.crcLo = s.crcLo ∧ t.frame = s.frame ∧ t.serr = s.serr ∧
      step t = exec i { t with turns := rest }

/-- The next step after a command word is placed runs exactly that instruction; a flash word of
duration 0 is refused with RANGE instead and nothing is run (the model's `withFetchWord`, log entry
4; R78, R171, R205). -/
def Obligations.FetchedWordRunsNext : Prop :=
  (∀ (s : State) (i : Instr), i.wellFormed = true →
    step (s.withFetchWord 32 (encode i).toNat) =
      exec i { s with pend := some i, err := false, ecode := 0, inReset := false }) ∧
  (∀ (s : State) (i : Instr), i.wellFormed = false →
    step (s.withFetchWord 32 (encode i).toNat) =
      .next { s with pend := none, err := true, ecode := 2, serr := true, inReset := false })

/-- The core's step never faults and never refuses, whatever the state, and leaves nothing pending
(R176, R205).  With nothing pending the core has no step in R205; that its turn then passes as a
step that changes nothing is the model's choice (DESIGN CHOICE, log entry 12). -/
def Obligations.CoreTurnNeverFails : Prop :=
  ∀ s : State, nextAgent s = .core →
    ∃ t, step s = .next t ∧ t.pend = none ∧ t.err = s.err ∧ t.ecode = s.ecode ∧ t.serr = s.serr

/-- R185: with BUSY = 0 a turn of the core changes nothing, and neither does a host that makes no
write and gives no reset.  That a turn with nothing to do passes as a step is the model's (log entry
12). -/
def Obligations.IdleBlockKeepsItsState : Prop :=
  (∀ s : State, s.busy = false → nextAgent s = .core → step s = .next { s with turns := s.turns.tail }) ∧
  (∀ s : State, s.busy = false → nextAgent s = .host → s.hostNext = none →
    step s = .next { s with turns := s.turns.tail }) ∧
  (∀ (s t : State) (op : HostOp), s.busy = false → HostAbout s op → step s = .next t →
    (∀ bytes addr e, op ≠ .store bytes addr e) → op ≠ .reset → op ≠ .assertReset →
    BlockUnchanged s t)

/-- Once the schedule has no more turns to give, a pending command completes at once, and then a
waiting host goes on: the weak fairness of R206 as the model has it (log entry 3). -/
def Obligations.PendingCommandCompletesByDefault : Prop :=
  ∀ (s : State) (i : Instr), s.turns = [] → s.pend = some i → s.inReset = false →
    s.hostNext = some .wait →
    ∃ t, step s = exec i s ∧ step s = .next t ∧
      step t = .next { t with
        host := { t.host with pos := t.host.pos + 1, draws := t.host.draws + 1 } }

/-- A stuck host (R52, R201, I22) stops only itself: with a command pending the core's step is still taken,
whatever the schedule names (R176, R206); with none, neither agent has a step.  That the core takes the
stuck host's own turn is log entry 22. -/
def Obligations.StuckHostLetsTheCoreComplete : Prop :=
  ∀ s : State,
    ((∃ bytes addr e, s.hostNext = some (.store bytes addr e) ∧
        (s.inReset = true ∨ admitted bytes addr = none)) ∨
      (∃ bytes addr x, s.hostNext = some (.load bytes addr x) ∧
        (s.inReset = true ∨ admitted bytes addr = none)) ∨
      (s.hostNext = some .wait ∧ s.inReset = true) ∨
      (s.hostNext = some .receive ∧ s.host.replies = [])) →
    (∀ i, s.pend = some i →
      step s = exec i { s with turns := s.turns.tail } ∧ ∃ t, step s = .next t ∧ t.pend = none) ∧
    (s.pend = none → nextAgent s = .host → ∃ r, step s = .fault r)

/-- R206: a pending command's completion step is taken, within as many steps as the schedule has turns,
unless reset comes first or the host commits a hazard read (R210), which refutes the run.  That a
schedule is a list, past whose end the core steps first, is the model's choice (log entry 3). -/
def Obligations.PendingCommandEventuallyCompletes : Prop :=
  ∀ (s : State) (i : Instr), s.pend = some i →
    ∃ n, n ≤ s.turns.length ∧
      ((∃ t, Sys2Proof.core.run n s = .next t ∧ t.pend = some i ∧
          step t = exec i { t with turns := t.turns.tail }) ∨
        (∃ t, Sys2Proof.core.run n s = .next t ∧ (HostAbout t .reset ∨ HostAbout t .assertReset)) ∨
        (∃ slot, Sys2Proof.core.run (n + 1) s = .fault (.readWhileBusy slot)))

/-- A host in WAIT reads STATUS for as many turns as it is given before the core's, changing nothing,
and the core's turn then completes the command (R61, R157, R206). -/
def Obligations.WaitLastsUntilTheCoreSteps : Prop :=
  ∀ (n : Nat) (s : State) (i : Instr) (rest : List Agent), s.pend = some i → s.inReset = false →
    s.hostNext = some .wait → s.turns = List.replicate n .host ++ .core :: rest →
    Sys2Proof.core.run (n + 1) s = exec i { s with turns := rest }

/-- The host program of CRC.BLOCK, run by the machine with no turn fixed in advance, ends with the CRC
of the block's bytes in the CRC register, and with the frame and the sticky error as they were
(R85, R112, R157; the schedule is log entry 3's). -/
def Obligations.CrcBlockRunComputesTheCrc : Prop :=
  ∀ (bs : List Byte) (s : State) (before after : List HostOp),
    s.turns = [] → s.busy = false → s.inReset = false →
    s.host.prog = before ++ (Pseudo.crcBlock bs).hostOps ++ after → s.host.pos = before.length →
    ∃ t : State, Sys2Proof.core.run (3 * (bs.length + 1)) s = .next t ∧
      t.busy = false ∧ busRead .crc t = .ok ((computeCRC bs).setWidth 32) ∧
      t.frame = s.frame ∧ t.serr = s.serr ∧ t.err = false ∧
      t.host = { s.host with
        pos := before.length + 2 * (bs.length + 1), draws := s.host.draws + 2 * (bs.length + 1) }

/-! ## Invariants and whole-machine rules -/

/-- The state after reset is the one R36 gives, and meets the invariant. -/
def Obligations.ResetStateMeetsTheInvariant : Prop :=
  BlockAtReset State.reset ∧ State.reset.busy = false ∧ State.reset.fvalid = false ∧ Inv State.reset

/-- Every step keeps the invariant: a valid frame is a signed frame of the spec's shapes, a pending
command's operands are in range, ERR and ECODE agree, and an asserted reset holds the reset state
(R24, R28, R31, R82, R200). -/
def Obligations.EveryStepKeepsTheInvariant : Prop :=
  ∀ s t : State, Inv s → step s = .next t → Inv t

/-- R24: whenever FVALID = 1, bytes 6 and 7 hold the CRC of bytes 0-5, in every state that meets the
invariant (`EveryStepKeepsTheInvariant`). -/
def Obligations.ValidFrameHoldsItsCrc : Prop :=
  ∀ (s : State), Inv s → s.fvalid = true →
    ∃ f, s.frame = some f ∧ f[6] = lo8 (computeCRC (f.toList.take 6)) ∧
      f[7] = hi8 (computeCRC (f.toList.take 6))

/-- R39: every step of the machine is a row of the write matrix, and writes what that row says and
nothing else of the block. -/
def Obligations.EveryStepIsARowOfTheWriteMatrix : Prop :=
  ∀ s t : State, step s = .next t →
    (nextAgent s = .host ∧ (s.hostNext = some .reset ∨ s.hostNext = some .assertReset) ∧
      BlockAtReset t) ∨
    (∃ w i, HostWrites s .cmd w ∧ s.busy = false ∧ decode w = .ok i ∧ i.wellFormed = true ∧
      t.pend = some i ∧ t.err = false ∧ t.ecode = 0 ∧ t.serr = s.serr ∧
      t.crcHi = s.crcHi ∧ t.crcLo = s.crcLo ∧ t.frame = s.frame) ∨
    (∃ w, HostWrites s .cmd w ∧
      ((s.busy = true ∧ t.ecode = 3) ∨
        (s.busy = false ∧ (∃ e, decode w = .error e) ∧ t.ecode = 1) ∨
        (s.busy = false ∧ (∃ i, decode w = .ok i ∧ i.wellFormed = false) ∧ t.ecode = 2)) ∧
      t.err = true ∧ t.serr = true ∧
      t.crcHi = s.crcHi ∧ t.crcLo = s.crcLo ∧ t.frame = s.frame ∧ t.pend = s.pend) ∨
    (nextAgent s = .core ∧ s.pend = some .crcInit ∧ t.crcHi = 0xFF ∧ t.crcLo = 0xFF ∧
      t.frame = s.frame ∧ t.pend = none ∧ t.err = s.err ∧ t.ecode = s.ecode ∧ t.serr = s.serr) ∨
    (∃ d, nextAgent s = .core ∧ s.pend = some (.crcUpd d) ∧
      (t.crcHi, t.crcLo) = crcStep (s.crcHi, s.crcLo) d ∧
      t.frame = s.frame ∧ t.pend = none ∧ t.err = s.err ∧ t.ecode = s.ecode ∧ t.serr = s.serr) ∨
    (∃ i p, nextAgent s = .core ∧ s.pend = some i ∧ framePayload i = some p ∧
      t.frame = some (sign p) ∧ t.fvalid = true ∧ cat16 t.crcHi t.crcLo = computeCRC p.toList ∧
      t.pend = none ∧ t.err = s.err ∧ t.ecode = s.ecode ∧ t.serr = s.serr) ∨
    (∃ v, HostWrites s .status v ∧ v[3] = true ∧ t.serr = false ∧
      t.crcHi = s.crcHi ∧ t.crcLo = s.crcLo ∧ t.frame = s.frame ∧ t.pend = s.pend ∧
      t.err = s.err ∧ t.ecode = s.ecode) ∨
    (BlockUnchanged s t ∧ (∀ w, ¬ HostWrites s .cmd w) ∧
      (∀ v, HostWrites s .status v → v[3] = false) ∧
      (nextAgent s = .core → s.pend = none) ∧
      (nextAgent s = .host → s.hostNext ≠ some .reset ∧ s.hostNext ≠ some .assertReset))

/-- R27: FVALID is set by every frame-command completion and cleared only by reset; a refused command,
CRC.INIT and CRC.UPD do not change it. -/
def Obligations.OnlyResetClearsFvalid : Prop :=
  (∀ (i : Instr) (p : Payload) (s : State), framePayload i = some p →
    ∃ t, exec i s = .next t ∧ t.fvalid = true) ∧
  (∀ s t : State, step s = .next t → s.fvalid = true → t.fvalid = false →
    nextAgent s = .host ∧ (s.hostNext = some .reset ∨ s.hostNext = some .assertReset)) ∧
  (∀ s t : State, step s = .next t → s.fvalid = false → t.fvalid = true →
    nextAgent s = .core ∧ ∃ i p, s.pend = some i ∧ framePayload i = some p) ∧
  (∀ (w : Word) (s : State), (issue w s).fvalid = s.fvalid)

/-- R22: the accumulator is written only by reset, CRC.INIT, CRC.UPD and the completion of a frame
command, and the host reads it through the CRC register. -/
def Obligations.OnlyCommandsAndResetWriteTheAccumulator : Prop :=
  (∀ s t : State, step s = .next t → (t.crcHi ≠ s.crcHi ∨ t.crcLo ≠ s.crcLo) →
    (nextAgent s = .host ∧ (s.hostNext = some .reset ∨ s.hostNext = some .assertReset)) ∨
    (nextAgent s = .core ∧ ∃ i, s.pend = some i)) ∧
  (∀ s : State, s.busy = false → busRead .crc s = .ok ((cat16 s.crcHi s.crcLo).setWidth 32))

/-- R28: ERR and ECODE say whether the most recent CMD write was accepted, and if not with which code
(OVERRUN 3, ILLEGAL 1, RANGE 2); no other step but reset changes them, and SERR, set with ERR, is
cleared only by reset or by a STATUS write with bit 3 set. -/
def Obligations.ErrorFlagsFollowCommandWrites : Prop :=
  (∀ (s : State) (w : Word), HostWrites s .cmd w →
    ∃ t, step s = .next t ∧
      ((s.busy = false ∧ ∃ i, decode w = .ok i ∧ i.wellFormed = true) →
        t.err = false ∧ t.ecode = 0 ∧ t.serr = s.serr) ∧
      (¬(s.busy = false ∧ ∃ i, decode w = .ok i ∧ i.wellFormed = true) →
        t.err = true ∧ t.serr = true) ∧
      (s.busy = true → t.ecode = 3) ∧
      (s.busy = false → (∃ e, decode w = .error e) → t.ecode = 1) ∧
      (s.busy = false → (∃ i, decode w = .ok i ∧ i.wellFormed = false) → t.ecode = 2)) ∧
  (∀ s t : State, step s = .next t → t.err ≠ s.err ∨ t.ecode ≠ s.ecode →
    (∃ w, HostWrites s .cmd w) ∨
    (nextAgent s = .host ∧ (s.hostNext = some .reset ∨ s.hostNext = some .assertReset))) ∧
  (∀ s t : State, step s = .next t → s.serr = true → t.serr = false →
    (∃ v, HostWrites s .status v ∧ v[3] = true) ∨
    (nextAgent s = .host ∧ (s.hostNext = some .reset ∨ s.hostNext = some .assertReset)))

/-- R64: a command in PEND is never replaced by another: it stays until the core completes it or a
reset discards it, whatever the host writes to CMD. -/
def Obligations.PendingCommandIsNeverReplaced : Prop :=
  ∀ (s t : State) (i : Instr), s.pend = some i → step s = .next t →
    t.pend = some i ∨
    (t.pend = none ∧ nextAgent s = .core ∧ exec i { s with turns := s.turns.tail } = .next t) ∨
    (t.pend = none ∧ nextAgent s = .host ∧
      (s.hostNext = some .reset ∨ s.hostNext = some .assertReset))

/-- A host that keeps the duties of R161 never commits a hazard read and never gets stuck at the block:
what can still stop it is a reply that never comes (R159, R186; log entries 7 and 15). -/
def Obligations.DutifulHostMeetsNoBlockFault : Prop :=
  ∀ (s : State) (r : Fault), HostDutyKept s → step s = .fault r →
    r = .hungReceive

/-! ## The host's side -/

/-- The host's computations, its branches, SEND, a RECV with a reply to come and the reply decode always
have a step, leave the block as it was, and are what R154, R155 and R158 say on the values of its
variables and of the reply; what those are before an assignment or a reply is free (DESIGN CHOICE, log
entry 13).  RECV takes the first 1024 bytes of the next reply and drops the rest of it (DESIGN CHOICE,
log entry 15), and a transport failure is recorded and ends the host's program (DEDUCED, log entry 11).  That a branch's label is a
position in the program, and that SEND hands over the low byte of each 32-bit value, of one above 255
too, are the model's choices (DESIGN CHOICE, log entries 14 and 17). -/
def Obligations.HostComputationsAlwaysRun : Prop :=
  (∀ (s : State) (x : Nat) (e : HostExpr), HostAbout s (.assign x e) →
    ∃ t, step s = .next t ∧ BlockUnchanged s t ∧ t.host.pos = s.host.pos + 1 ∧
      varValue t.host x = evalExpr s.host e ∧
      ∀ y, y ≠ x → getVar y t.host.vars = getVar y s.host.vars) ∧
  (∀ (s : State) (x : Nat) (e : HostExpr) (target : Nat), HostAbout s (.bne x e target) →
    ∃ t, step s = .next t ∧ BlockUnchanged s t ∧ t.host.vars = s.host.vars ∧
      t.host.pos = if varValue s.host x = evalExpr s.host e then s.host.pos + 1 else target) ∧
  (∀ (s : State) (fs : Vector HostExpr 8), HostAbout s (.send fs) →
    ∃ t f, step s = .next t ∧ BlockUnchanged s t ∧ t.host.pos = s.host.pos + 1 ∧
      t.host.sent = s.host.sent ++ [f] ∧
      ∀ k : Fin 8, f[k] = (evalExpr s.host fs[k]).extractLsb' 0 8) ∧
  (∀ (s : State) (bs : List Byte) (rest : List Reply), HostAbout s .receive →
    s.host.replies = .bytes bs :: rest →
    ∃ t, step s = .next t ∧ BlockUnchanged s t ∧ t.host.pos = s.host.pos + 1 ∧
      t.host.reply = some (bs.take 1024) ∧ t.host.replies = rest ∧ t.host.vars = s.host.vars ∧
      t.host.sent = s.host.sent ∧ t.host.transportFailed = s.host.transportFailed) ∧
  (∀ (s : State) (rest : List Reply), HostAbout s .receive →
    s.host.replies = .transportFailure :: rest →
    ∃ t, step s = .next t ∧ BlockUnchanged s t ∧ t.hostNext = none ∧
      t.host.transportFailed = true ∧ t.host.replies = rest ∧ t.host.reply = s.host.reply ∧
      t.host.vars = s.host.vars ∧ t.host.sent = s.host.sent) ∧
  (∀ s : State, HostAbout s .decodeReply →
    ∃ t d, step s = .next t ∧ BlockUnchanged s t ∧ t.host.pos = s.host.pos + 1 ∧
      t.host.decoded = some d ∧ (∀ r, s.host.reply = some r → d = decodeState r)) ∧
  (∀ (h : HostSide) (x : Nat) (v : Word), getVar x h.vars = some v → evalExpr h (.var x) = v)

/-- R151, R152, R153: the command line's relay numbers 1-8 (and 256 for `relay`) become indices n - 1
and 0xFF, `state` becomes STATEQ, and any other relay number or a duration outside 1-65535 is
rejected before any command is issued. -/
def Obligations.CliCommandsMapToBlockCommands : Prop :=
  (∀ n : Nat, 1 ≤ n → n ≤ 8 →
    (CliCommand.relay n .on).instr = some (.relayOn (BitVec.ofNat 8 (n - 1))) ∧
    (CliCommand.relay n .off).instr = some (.relayOff (BitVec.ofNat 8 (n - 1))) ∧
    (CliCommand.relay n .flip).instr = some (.relayFlip (BitVec.ofNat 8 (n - 1)))) ∧
  (CliCommand.relay 256 .on).instr = some (.relayOn 0xFF) ∧
  (CliCommand.relay 256 .off).instr = some (.relayOff 0xFF) ∧
  (CliCommand.relay 256 .flip).instr = some (.relayFlip 0xFF) ∧
  (∀ n d : Nat, 1 ≤ n → n ≤ 8 → 1 ≤ d → d ≤ 65535 →
    ∃ dur : Half, dur.toNat = d ∧
      (CliCommand.flash n true d).instr = some (.flashOn (BitVec.ofNat 8 (n - 1)) dur) ∧
      (CliCommand.flash n false d).instr = some (.flashOff (BitVec.ofNat 8 (n - 1)) dur)) ∧
  CliCommand.state.instr = some .stateQuery ∧
  (∀ (n : Nat) (a : CliAction), (n = 0 ∨ 8 < n) → n ≠ 256 → (CliCommand.relay n a).instr = none) ∧
  (∀ (n d : Nat) (on : Bool), n = 0 ∨ 8 < n ∨ d = 0 ∨ 65535 < d →
    (CliCommand.flash n on d).instr = none) ∧
  (∀ (c : CliCommand) (i : Instr), c.instr = some i → i.wellFormed = true)

/-- R155: a reply of fewer than 4 bytes is malformed; otherwise relay `i + 1`'s state is bit `i` of
byte 3, and no other byte matters. -/
def Obligations.ReplyDecodeReadsByteThree : Prop :=
  (∀ r : List Byte, r.length < 4 → decodeState r = .malformedResponse) ∧
  (∀ (b0 b1 b2 b3 : Byte) (rest : List Byte), ∃ v : Vector Bool 8,
    decodeState (b0 :: b1 :: b2 :: b3 :: rest) = .relayStates v ∧
    ∀ i : Fin 8, v[i] = ((b3 &&& (1#8 <<< i.val)) != 0))

/-- The eight bytes a host takes out of the words it read from FRAME0 and FRAME1, and sends, are the
frame buffer in wire order (R34, R55, R154). -/
def Obligations.HostSendsTheFrameBuffer : Prop :=
  ∀ (s : State) (f : Frame) (x y : Nat) (w0 w1 : Word), s.frame = some f →
    busRead .frame0 s = .ok w0 → busRead .frame1 s = .ok w1 →
    getVar x s.host.vars = some w0 → getVar y s.host.vars = some w1 →
    HostAbout s (.send (Vector.ofFn fun k : Fin 8 =>
      .frameByte (.var x) (.var y) (.const (BitVec.ofNat 32 k)))) →
    ∃ t, step s = .next t ∧ t.host.sent = s.host.sent ++ [f] ∧ BlockUnchanged s t
end

