-- ==== Sys2Proof/Laws/Bytes.lean ====
section
/-! SUPPORT. The byte helpers undo each other, what signing gives, and the length of the tables. -/

namespace Sys2Proof.Machine

@[simp] theorem hi8_cat16 (h l : Byte) : hi8 (cat16 h l) = h :=
  BitVec.extractLsb'_append_eq_left

@[simp] theorem lo8_cat16 (h l : Byte) : lo8 (cat16 h l) = l :=
  BitVec.extractLsb'_append_eq_right

@[simp] theorem cat16_hi8_lo8 (c : Half) : cat16 (hi8 c) (lo8 c) = c :=
  BitVec.extractLsb'_append_extractLsb' (w := 8) (len := 8) (x := c)

theorem crcTableHighRows_length : crcTableHighRows.length = 256 := by
  simp only [crcTableHighRows, List.length_append, List.length_cons, List.length_nil]

theorem crcTableLowRows_length : crcTableLowRows.length = 256 := by
  simp only [crcTableLowRows, List.length_append, List.length_cons, List.length_nil]

/-- Bytes 6 and 7 of a signed frame, together the CRC of its payload (R120). -/
theorem sign_crc (p : Payload) : cat16 (sign p)[7] (sign p)[6] = computeCRC p.toList := by
  simp [sign]

theorem sign_low (p : Payload) : (sign p)[6] = lo8 (computeCRC p.toList) := rfl

theorem sign_high (p : Payload) : (sign p)[7] = hi8 (computeCRC p.toList) := rfl

end Sys2Proof.Machine
end

