-- ==== Sys2Proof/Laws/Decode.lean ====
section
/-! SUPPORT. The fields of a word written as opcode byte, IDX and low half, and of a word written as 24
bits and DATA (30_encoding.md R70, R71), and what each encoding pattern of R71 looks like to them. -/

namespace Sys2Proof

theorem lowHalf_append (a b : Byte) (c : Half) : (a ++ b ++ c : Word).extractLsb' 0 16 = c :=
  BitVec.extractLsb'_append_eq_right

theorem durField_append (a b : Byte) (c : Half) : durField (a ++ b ++ c) = c :=
  lowHalf_append a b c

theorem idxField_append (a b : Byte) (c : Half) : idxField (a ++ b ++ c) = b :=
  (BitVec.extractLsb'_append_eq_of_le (by decide)).trans BitVec.extractLsb'_append_eq_right

theorem rsvField_append (a b : Byte) (c : Half) : rsvField (a ++ b ++ c) = a.extractLsb' 0 4 :=
  (BitVec.extractLsb'_append_eq_of_le (by decide)).trans
    (BitVec.extractLsb'_append_eq_of_le (by decide))

theorem opField_append (a b : Byte) (c : Half) : opField (a ++ b ++ c) = a.extractLsb' 4 4 :=
  (BitVec.extractLsb'_append_eq_of_le (by decide)).trans
    (BitVec.extractLsb'_append_eq_of_le (by decide))

theorem dataField_append (a : BitVec 24) (d : Byte) : dataField (a ++ d) = d :=
  BitVec.extractLsb'_append_eq_right

theorem zeroField_append (a : BitVec 24) (d : Byte) :
    (a ++ d : Word).extractLsb' 8 16 = a.extractLsb' 0 16 :=
  BitVec.extractLsb'_append_eq_of_le (by decide)

theorem rsvField_append_data (a : BitVec 24) (d : Byte) : rsvField (a ++ d) = a.extractLsb' 16 4 :=
  BitVec.extractLsb'_append_eq_of_le (by decide)

theorem opField_append_data (a : BitVec 24) (d : Byte) : opField (a ++ d) = a.extractLsb' 20 4 :=
  BitVec.extractLsb'_append_eq_of_le (by decide)

@[simp] theorem whenZero_zero {n : Nat} (op : BitVec 4) (i : Instr) :
    whenZero (0 : BitVec n) op i = .ok i := by
  simp [whenZero]

end Sys2Proof
end

