-- ==== Sys2Proof/Laws/State.lean ====
section
/-! SUPPORT. One lemma per field of State per shared update, each true by rfl, so that no proof unfolds a
record update. -/

namespace Sys2Proof.Machine

@[simp] theorem raiseError_crcHi (c : ErrorCause) (s : State) : (raiseError c s).crcHi = s.crcHi := rfl
@[simp] theorem raiseError_crcLo (c : ErrorCause) (s : State) : (raiseError c s).crcLo = s.crcLo := rfl
@[simp] theorem raiseError_frame (c : ErrorCause) (s : State) : (raiseError c s).frame = s.frame := rfl
@[simp] theorem raiseError_pend (c : ErrorCause) (s : State) : (raiseError c s).pend = s.pend := rfl
@[simp] theorem raiseError_err (c : ErrorCause) (s : State) : (raiseError c s).err = true := rfl
@[simp] theorem raiseError_ecode (c : ErrorCause) (s : State) : (raiseError c s).ecode = errorCode c := rfl
@[simp] theorem raiseError_serr (c : ErrorCause) (s : State) : (raiseError c s).serr = true := rfl
@[simp] theorem raiseError_inReset (c : ErrorCause) (s : State) : (raiseError c s).inReset = s.inReset := rfl
@[simp] theorem raiseError_turns (c : ErrorCause) (s : State) : (raiseError c s).turns = s.turns := rfl
@[simp] theorem raiseError_host (c : ErrorCause) (s : State) : (raiseError c s).host = s.host := rfl

@[simp] theorem accept_crcHi (i : Instr) (s : State) : (accept i s).crcHi = s.crcHi := rfl
@[simp] theorem accept_crcLo (i : Instr) (s : State) : (accept i s).crcLo = s.crcLo := rfl
@[simp] theorem accept_frame (i : Instr) (s : State) : (accept i s).frame = s.frame := rfl
@[simp] theorem accept_pend (i : Instr) (s : State) : (accept i s).pend = some i := rfl
@[simp] theorem accept_err (i : Instr) (s : State) : (accept i s).err = false := rfl
@[simp] theorem accept_ecode (i : Instr) (s : State) : (accept i s).ecode = 0 := rfl
@[simp] theorem accept_serr (i : Instr) (s : State) : (accept i s).serr = s.serr := rfl
@[simp] theorem accept_inReset (i : Instr) (s : State) : (accept i s).inReset = s.inReset := rfl
@[simp] theorem accept_turns (i : Instr) (s : State) : (accept i s).turns = s.turns := rfl
@[simp] theorem accept_host (i : Instr) (s : State) : (accept i s).host = s.host := rfl

@[simp] theorem completeCrc_crcHi (a : Byte × Byte) (s : State) : (completeCrc a s).crcHi = a.1 := rfl
@[simp] theorem completeCrc_crcLo (a : Byte × Byte) (s : State) : (completeCrc a s).crcLo = a.2 := rfl
@[simp] theorem completeCrc_frame (a : Byte × Byte) (s : State) : (completeCrc a s).frame = s.frame := rfl
@[simp] theorem completeCrc_pend (a : Byte × Byte) (s : State) : (completeCrc a s).pend = none := rfl
@[simp] theorem completeCrc_err (a : Byte × Byte) (s : State) : (completeCrc a s).err = s.err := rfl
@[simp] theorem completeCrc_ecode (a : Byte × Byte) (s : State) : (completeCrc a s).ecode = s.ecode := rfl
@[simp] theorem completeCrc_serr (a : Byte × Byte) (s : State) : (completeCrc a s).serr = s.serr := rfl
@[simp] theorem completeCrc_inReset (a : Byte × Byte) (s : State) : (completeCrc a s).inReset = s.inReset := rfl
@[simp] theorem completeCrc_turns (a : Byte × Byte) (s : State) : (completeCrc a s).turns = s.turns := rfl
@[simp] theorem completeCrc_host (a : Byte × Byte) (s : State) : (completeCrc a s).host = s.host := rfl

@[simp] theorem completeFrame_frame (p : Payload) (s : State) : (completeFrame p s).frame = some (sign p) := rfl
@[simp] theorem completeFrame_pend (p : Payload) (s : State) : (completeFrame p s).pend = none := rfl
@[simp] theorem completeFrame_err (p : Payload) (s : State) : (completeFrame p s).err = s.err := rfl
@[simp] theorem completeFrame_ecode (p : Payload) (s : State) : (completeFrame p s).ecode = s.ecode := rfl
@[simp] theorem completeFrame_serr (p : Payload) (s : State) : (completeFrame p s).serr = s.serr := rfl
@[simp] theorem completeFrame_inReset (p : Payload) (s : State) : (completeFrame p s).inReset = s.inReset := rfl
@[simp] theorem completeFrame_turns (p : Payload) (s : State) : (completeFrame p s).turns = s.turns := rfl
@[simp] theorem completeFrame_host (p : Payload) (s : State) : (completeFrame p s).host = s.host := rfl

@[simp] theorem clearStickyError_crcHi (s : State) : (clearStickyError s).crcHi = s.crcHi := rfl
@[simp] theorem clearStickyError_crcLo (s : State) : (clearStickyError s).crcLo = s.crcLo := rfl
@[simp] theorem clearStickyError_frame (s : State) : (clearStickyError s).frame = s.frame := rfl
@[simp] theorem clearStickyError_pend (s : State) : (clearStickyError s).pend = s.pend := rfl
@[simp] theorem clearStickyError_err (s : State) : (clearStickyError s).err = s.err := rfl
@[simp] theorem clearStickyError_ecode (s : State) : (clearStickyError s).ecode = s.ecode := rfl
@[simp] theorem clearStickyError_serr (s : State) : (clearStickyError s).serr = false := rfl
@[simp] theorem clearStickyError_inReset (s : State) : (clearStickyError s).inReset = s.inReset := rfl
@[simp] theorem clearStickyError_turns (s : State) : (clearStickyError s).turns = s.turns := rfl
@[simp] theorem clearStickyError_host (s : State) : (clearStickyError s).host = s.host := rfl

@[simp] theorem resetBlock_crcHi (s : State) : (resetBlock s).crcHi = 0xFF := rfl
@[simp] theorem resetBlock_crcLo (s : State) : (resetBlock s).crcLo = 0xFF := rfl
@[simp] theorem resetBlock_frame (s : State) : (resetBlock s).frame = none := rfl
@[simp] theorem resetBlock_pend (s : State) : (resetBlock s).pend = none := rfl
@[simp] theorem resetBlock_err (s : State) : (resetBlock s).err = false := rfl
@[simp] theorem resetBlock_ecode (s : State) : (resetBlock s).ecode = 0 := rfl
@[simp] theorem resetBlock_serr (s : State) : (resetBlock s).serr = false := rfl
@[simp] theorem resetBlock_inReset (s : State) : (resetBlock s).inReset = s.inReset := rfl
@[simp] theorem resetBlock_turns (s : State) : (resetBlock s).turns = s.turns := rfl
@[simp] theorem resetBlock_host (s : State) : (resetBlock s).host = s.host := rfl

@[simp] theorem popTurn_crcHi (s : State) : (popTurn s).crcHi = s.crcHi := rfl
@[simp] theorem popTurn_crcLo (s : State) : (popTurn s).crcLo = s.crcLo := rfl
@[simp] theorem popTurn_frame (s : State) : (popTurn s).frame = s.frame := rfl
@[simp] theorem popTurn_pend (s : State) : (popTurn s).pend = s.pend := rfl
@[simp] theorem popTurn_err (s : State) : (popTurn s).err = s.err := rfl
@[simp] theorem popTurn_ecode (s : State) : (popTurn s).ecode = s.ecode := rfl
@[simp] theorem popTurn_serr (s : State) : (popTurn s).serr = s.serr := rfl
@[simp] theorem popTurn_inReset (s : State) : (popTurn s).inReset = s.inReset := rfl
@[simp] theorem popTurn_turns (s : State) : (popTurn s).turns = s.turns.tail := rfl
@[simp] theorem popTurn_host (s : State) : (popTurn s).host = s.host := rfl

@[simp] theorem hostGoto_crcHi (p : Nat) (s : State) : (hostGoto p s).crcHi = s.crcHi := rfl
@[simp] theorem hostGoto_crcLo (p : Nat) (s : State) : (hostGoto p s).crcLo = s.crcLo := rfl
@[simp] theorem hostGoto_frame (p : Nat) (s : State) : (hostGoto p s).frame = s.frame := rfl
@[simp] theorem hostGoto_pend (p : Nat) (s : State) : (hostGoto p s).pend = s.pend := rfl
@[simp] theorem hostGoto_err (p : Nat) (s : State) : (hostGoto p s).err = s.err := rfl
@[simp] theorem hostGoto_ecode (p : Nat) (s : State) : (hostGoto p s).ecode = s.ecode := rfl
@[simp] theorem hostGoto_serr (p : Nat) (s : State) : (hostGoto p s).serr = s.serr := rfl
@[simp] theorem hostGoto_inReset (p : Nat) (s : State) : (hostGoto p s).inReset = s.inReset := rfl
@[simp] theorem hostGoto_turns (p : Nat) (s : State) : (hostGoto p s).turns = s.turns := rfl
@[simp] theorem hostGoto_host (p : Nat) (s : State) : (hostGoto p s).host =
    { s.host with pos := p, draws := s.host.draws + 1 } := rfl

@[simp] theorem reset_busy : State.reset.busy = false := rfl
@[simp] theorem reset_fvalid : State.reset.fvalid = false := rfl
@[simp] theorem accept_busy (i : Instr) (s : State) : (accept i s).busy = true := rfl
@[simp] theorem raiseError_busy (c : ErrorCause) (s : State) : (raiseError c s).busy = s.busy := rfl
@[simp] theorem popTurn_busy (s : State) : (popTurn s).busy = s.busy := rfl
@[simp] theorem popTurn_hostNext (s : State) : (popTurn s).hostNext = s.hostNext := rfl

end Sys2Proof.Machine
end

