-- ==== Sys2Proof/Laws/Ops.lean ====
section
/-! SUPPORT. Everything the shared operations can do, said once: acceptance, completion, the register
window, and the step. -/

namespace Sys2Proof.Machine

@[simp] theorem completeFrame_crcHi (p : Payload) (s : State) :
    (completeFrame p s).crcHi = hi8 (computeCRC p.toList) := by
  simp [completeFrame, sign]

@[simp] theorem completeFrame_crcLo (p : Payload) (s : State) :
    (completeFrame p s).crcLo = lo8 (computeCRC p.toList) := by
  simp [completeFrame, sign]

/-- A command is refused with RANGE exactly when its operands are not in range (R75). -/
theorem durationZero_eq (i : Instr) : durationZero i = !i.wellFormed := by
  cases i <;> simp [durationZero, Instr.wellFormed, bne]

/-- What a CMD write can do: report one of the three errors, or accept a well-formed command (R171). -/
theorem issue_cases (w : Word) (s : State) :
    (s.busy = true ∧ issue w s = raiseError .overrun s) ∨
    (s.busy = false ∧ (∃ e, decode w = .error e) ∧ issue w s = raiseError .illegal s) ∨
    (s.busy = false ∧ (∃ i, decode w = .ok i ∧ i.wellFormed = false) ∧
      issue w s = raiseError .range s) ∨
    (s.busy = false ∧ ∃ i, decode w = .ok i ∧ i.wellFormed = true ∧ issue w s = accept i s) := by
  unfold issue
  cases hb : s.busy
  · cases hd : decode w with
    | error e => exact .inr (.inl ⟨rfl, ⟨e, rfl⟩, by simp⟩)
    | ok i =>
      cases hw : i.wellFormed
      · exact .inr (.inr (.inl ⟨rfl, ⟨i, rfl, hw⟩, by simp [durationZero_eq, hw]⟩))
      · exact .inr (.inr (.inr ⟨rfl, i, rfl, hw, by simp [durationZero_eq, hw]⟩))
  · exact .inl ⟨rfl, by simp⟩

theorem issue_of_wellFormed {w : Word} {i : Instr} {s : State} (hb : s.busy = false)
    (hd : decode w = .ok i) (hw : i.wellFormed = true) : issue w s = accept i s := by
  simp [issue, hb, hd, durationZero_eq, hw]

/-- A CMD write changes only PEND and the error state (R39, R172). -/
theorem issue_frame (w : Word) (s : State) :
    (issue w s).crcHi = s.crcHi ∧ (issue w s).crcLo = s.crcLo ∧ (issue w s).frame = s.frame ∧
    (issue w s).inReset = s.inReset ∧ (issue w s).turns = s.turns ∧ (issue w s).host = s.host := by
  rcases issue_cases w s with ⟨_, h⟩ | ⟨_, _, h⟩ | ⟨_, _, h⟩ | ⟨_, i, _, _, h⟩ <;> simp [h]

/-- What a write to a slot can do: issue a command, clear SERR, or nothing (R54). -/
theorem busWrite_cases (slot : Slot) (v : Word) (s : State) :
    (slot = .cmd ∧ busWrite slot v s = issue v s) ∨
    (slot = .status ∧ v[3] = true ∧ busWrite slot v s = clearStickyError s) ∨
    (slot ≠ .cmd ∧ (slot = .status → v[3] = false) ∧ busWrite slot v s = s) := by
  cases slot
  case cmd => exact .inl ⟨rfl, rfl⟩
  case status =>
    cases h : v[3]
    · exact .inr (.inr ⟨nofun, fun _ => rfl, if_neg (ne_true_of_eq_false h)⟩)
    · exact .inr (.inl ⟨rfl, rfl, if_pos h⟩)
  all_goals exact .inr (.inr ⟨nofun, nofun, rfl⟩)

/-- What completing an instruction does: a frame command signs its payload, the CRC commands set the
accumulator (R205). -/
theorem exec_cases (i : Instr) (s : State) :
    (∃ p, framePayload i = some p ∧ exec i s = .next (completeFrame p s)) ∨
    (framePayload i = none ∧ ∃ a, exec i s = .next (completeCrc a s)) := by
  cases i
  case crcInit => exact .inr ⟨rfl, _, rfl⟩
  case crcUpd d => exact .inr ⟨rfl, _, rfl⟩
  all_goals exact .inl ⟨_, rfl, rfl⟩

/-- Two register accesses at a window offset the block admits (R50, R52). -/
@[simp] theorem admitted_base_add (off : Nat) : admitted 4 (Config.base + off) = slotAt off := by
  simp [admitted]

/-- The core's turn always answers a next state: the same one when it is idle, and the completion of
the pending command otherwise. -/
theorem coreTurn_cases (s : State) :
    (s.pend = none ∧ coreTurn s = .next s) ∨ (∃ i, s.pend = some i ∧ coreTurn s = exec i s) := by
  cases h : s.pend with
  | none => exact .inl ⟨rfl, by simp [coreTurn, h]⟩
  | some i => exact .inr ⟨i, rfl, by simp [coreTurn, h]⟩

/-- What one operation of the host can do to the block, and to the reset input: an admitted write, a
reset, the end of a reset, or nothing. -/
theorem hostOp_cases {op : HostOp} {s t : State} (h : hostOp op s = .next t) :
    (∃ bytes addr e slot v, op = .store bytes addr e ∧ s.inReset = false ∧
      admitted bytes addr = some slot ∧ evalExpr s.host e = v ∧
      t = hostAdvance (busWrite slot v s)) ∨
    (op = .reset ∧ t = hostAdvance { resetBlock s with inReset := false }) ∨
    (op = .assertReset ∧ t = hostAdvance { resetBlock s with inReset := true }) ∨
    (op = .releaseReset ∧ t = hostAdvance { s with inReset := false }) ∨
    (((∀ bytes addr e, op ≠ .store bytes addr e) ∧ op ≠ .reset ∧ op ≠ .assertReset ∧
      op ≠ .releaseReset) ∧ ∃ hs, t = { s with host := hs }) := by
  cases op with
  | store bytes addr e =>
    left
    simp only [hostOp, hostStore] at h
    cases hr : s.inReset with
    | true => simp [hr] at h
    | false =>
      cases ha : admitted bytes addr with
      | none => simp [hr, ha] at h
      | some slot =>
        simp [hr, ha] at h
        exact ⟨bytes, addr, e, slot, _, rfl, rfl, ha, rfl, h.symm⟩
  | reset => right; left; simp [hostOp, hostReset] at h; exact ⟨rfl, h.symm⟩
  | assertReset => right; right; left; simp [hostOp, hostAssertReset] at h; exact ⟨rfl, h.symm⟩
  | releaseReset =>
    right; right; right; left; simp [hostOp, hostReleaseReset] at h; exact ⟨rfl, h.symm⟩
  | load bytes addr x =>
    refine .inr (.inr (.inr (.inr ⟨⟨nofun, nofun, nofun, nofun⟩, ?_⟩)))
    simp only [hostOp, hostLoad] at h
    split at h
    · cases h
    · split at h
      · cases h
      · split at h
        · cases h
        · injection h with h; exact ⟨_, h.symm⟩
  | wait =>
    refine .inr (.inr (.inr (.inr ⟨⟨nofun, nofun, nofun, nofun⟩, ?_⟩)))
    simp only [hostOp, hostWait] at h
    split at h
    · cases h
    · split at h <;> injection h with h
      · exact ⟨s.host, h.symm⟩
      · exact ⟨_, h.symm⟩
  | bne x e target =>
    refine .inr (.inr (.inr (.inr ⟨⟨nofun, nofun, nofun, nofun⟩, ?_⟩)))
    simp only [hostOp, hostBranch] at h
    split at h <;> (injection h with h; exact ⟨_, h.symm⟩)
  | assign x e =>
    refine .inr (.inr (.inr (.inr ⟨⟨nofun, nofun, nofun, nofun⟩, ?_⟩)))
    injection h with h; exact ⟨_, h.symm⟩
  | send fs =>
    refine .inr (.inr (.inr (.inr ⟨⟨nofun, nofun, nofun, nofun⟩, ?_⟩)))
    injection h with h; exact ⟨_, h.symm⟩
  | receive =>
    refine .inr (.inr (.inr (.inr ⟨⟨nofun, nofun, nofun, nofun⟩, ?_⟩)))
    simp only [hostOp, hostReceive] at h
    split at h
    · cases h
    · injection h with h; exact ⟨_, h.symm⟩
    · injection h with h; exact ⟨_, h.symm⟩
  | decodeReply =>
    refine .inr (.inr (.inr (.inr ⟨⟨nofun, nofun, nofun, nofun⟩, ?_⟩)))
    injection h with h; exact ⟨_, h.symm⟩

/-- A host that steps while a command is pending is not stuck. -/
theorem hostStuck_of_host {s : State} (h : nextAgent s = .host) (hb : s.busy = true) :
    s.hostStuck = false := by
  unfold nextAgent at h
  rcases hs : s.turns with _ | ⟨_ | _, rest⟩ <;> simp_all

/-- A stuck host leaves its turn to the core while a command is pending. -/
theorem nextAgent_of_stuck {s : State} (hb : s.busy = true) (hs : s.hostStuck = true) :
    nextAgent s = .core := by
  unfold nextAgent
  rcases ht : s.turns with _ | ⟨_ | _, rest⟩ <;> simp [hb, hs]

/-- What a fault of a read is: a hazard (R210, R211). -/
theorem busRead_error {slot : Slot} {s : State} {r : Fault} (h : busRead slot s = .error r) :
    (r = .readWhileBusy slot ∧ s.busy = true) ∨
    (r = .readUnwrittenFrame slot ∧ s.busy = false ∧ s.fvalid = false) := by
  cases slot
  case crc =>
    cases hb : s.busy <;> simp [busRead, hb] at h
    exact .inl ⟨h.symm, rfl⟩
  case frame0 | frame1 =>
    cases hb : s.busy <;> cases hf : s.frame <;>
      simp [busRead, readFrame, hb, hf, Except.map] at h <;> simp [← h, State.fvalid, hf]
  all_goals cases h

/-- What a fault of the host's turn is: a host that is stuck, or a hazard read (R186). -/
theorem hostTurn_fault {s : State} {r : Fault} (h : hostTurn s = .fault r) :
    s.hostStuck = true ∨ ∃ slot, (r = .readWhileBusy slot ∧ s.busy = true) ∨
      (r = .readUnwrittenFrame slot ∧ s.busy = false ∧ s.fvalid = false) := by
  unfold hostTurn at h
  cases ho : s.hostNext with
  | none => simp [ho] at h
  | some op =>
    simp only [ho] at h
    simp only [State.hostStuck, ho]
    cases op with
    | store bytes addr e =>
      left
      cases hr : s.inReset <;> cases ha : admitted bytes addr <;>
        simp_all [hostOp, hostStore, opStuck, accessStuck]
    | load bytes addr x =>
      simp only [hostOp, hostLoad] at h
      cases hr : s.inReset <;> cases ha : admitted bytes addr <;>
        simp only [hr, ha, Bool.false_eq_true, if_false] at h
      case false.some slot =>
        cases hv : busRead slot s <;> simp only [hv] at h
        case ok => cases h
        case error e => injection h with h; exact .inr ⟨slot, busRead_error (h ▸ hv)⟩
      all_goals exact .inl (by simp [opStuck, accessStuck, hr, ha])
    | wait =>
      left
      simp only [hostOp, hostWait] at h
      split at h
      · assumption
      · split at h <;> cases h
    | receive =>
      left
      simp only [hostOp, hostReceive] at h
      split at h
      · next hs => simp [opStuck, hs]
      all_goals cases h
    | bne x e target => simp only [hostOp, hostBranch] at h; split at h <;> cases h
    | assign x e => cases h
    | send fs => cases h
    | decodeReply => cases h
    | reset => cases h
    | assertReset => cases h
    | releaseReset => cases h

/-- What one step can be: the host's operation, the host with none left, or the core's turn. -/
theorem step_cases {s t : State} (h : step s = .next t) :
    (nextAgent s = .host ∧ ∃ op, s.hostNext = some op ∧ hostOp op (popTurn s) = .next t) ∨
    (nextAgent s = .host ∧ s.hostNext = none ∧ t = popTurn s) ∨
    (nextAgent s = .core ∧ coreTurn (popTurn s) = .next t) := by
  unfold step agentTurn at h
  cases ha : nextAgent s with
  | core => exact .inr (.inr ⟨rfl, by simpa [ha] using h⟩)
  | host =>
    simp only [ha, hostTurn, popTurn_hostNext] at h
    cases ho : s.hostNext with
    | none =>
      simp only [ho] at h
      injection h with h
      exact .inr (.inl ⟨rfl, rfl, h.symm⟩)
    | some op =>
      simp only [ho] at h
      exact .inl ⟨rfl, op, rfl, h⟩

end Sys2Proof.Machine
end

