-- ==== Sys2Proof/Laws/PerInstr.lean ====
section
/-! SUPPORT. The family RowMatch: every instruction's word, under its row's mask, is its row's match
(30_encoding.md R77). -/

namespace Sys2Proof.Laws.RowMatch

/-- The row of R77 an instruction belongs to: its match and its mask. -/
def row : Instr → Word × Word
  | .relayOn _ => (0x10000000, 0xFF00FFFF)
  | .relayOff _ => (0x20000000, 0xFF00FFFF)
  | .relayFlip _ => (0x30000000, 0xFF00FFFF)
  | .flashOn _ _ => (0x40000000, 0xFF000000)
  | .flashOff _ _ => (0x50000000, 0xFF000000)
  | .stateQuery => (0x60000000, 0xFFFFFFFF)
  | .crcInit => (0x80000000, 0xFFFFFFFF)
  | .crcUpd _ => (0x90000000, 0xFFFFFF00)

/-- The word of `i` matches the row of `i`. -/
def Statement (i : Instr) : Prop := encode i &&& (row i).2 = (row i).1

/-- Masking a word field by field, for a word of opcode byte, IDX and low half. -/
theorem and_fields (a m : Byte) (b n : Byte) (c o : Half) :
    ((a ++ b ++ c : Word) &&& (m ++ n ++ o : Word)) = ((a &&& m) ++ (b &&& n) ++ (c &&& o) : Word) :=
  BitVec.and_append.trans (congrArg (· ++ (c &&& o)) BitVec.and_append)

theorem relayOn (idx : Byte) : Statement (.relayOn idx) :=
  (and_fields 0x10 0xFF idx 0x00 0 0xFFFF).trans (by simp [row])

theorem relayOff (idx : Byte) : Statement (.relayOff idx) :=
  (and_fields 0x20 0xFF idx 0x00 0 0xFFFF).trans (by simp [row])

theorem relayFlip (idx : Byte) : Statement (.relayFlip idx) :=
  (and_fields 0x30 0xFF idx 0x00 0 0xFFFF).trans (by simp [row])

theorem flashOn (idx : Byte) (dur : Half) : Statement (.flashOn idx dur) :=
  (and_fields 0x40 0xFF idx 0x00 dur 0x0000).trans (by simp [row])

theorem flashOff (idx : Byte) (dur : Half) : Statement (.flashOff idx dur) :=
  (and_fields 0x50 0xFF idx 0x00 dur 0x0000).trans (by simp [row])

theorem stateQuery : Statement .stateQuery := rfl

theorem crcInit : Statement .crcInit := rfl

theorem crcUpd (data : Byte) : Statement (.crcUpd data) :=
  (BitVec.and_append (x₁ := 0x900000#24) (x₂ := 0xFFFFFF#24) (y₁ := data) (y₂ := 0x00#8)).trans
    (by simp [row])

end Sys2Proof.Laws.RowMatch
end

