-- ==== Sys2Proof/Laws/Run.lean ====
section
/-! SUPPORT. Running the machine one step at a time, what the agent whose turn it is does, and what an
access of the host to the window does. -/

namespace Sys2Proof.Machine

theorem run_succ (M : Host.Core) (k : Nat) (s : M.State) :
    M.run (k + 1) s = match M.step s with
      | .next t => M.run k t
      | .fault r => .fault r
      | .refused r => .refused r := rfl

theorem run_of_next (M : Host.Core) (k : Nat) {s t : M.State} (h : M.step s = .next t) :
    M.run (k + 1) s = M.run k t := by
  rw [run_succ, h]

theorem run_one (M : Host.Core) (s : M.State) : M.run 1 s = M.step s := by
  rw [run_succ]; cases M.step s <;> rfl

/-- `run_of_next` for this machine, in its own names. -/
theorem core_run_of_next (k : Nat) {s t : State} (h : step s = .next t) :
    Sys2Proof.core.run (k + 1) s = Sys2Proof.core.run k t :=
  run_of_next Sys2Proof.core k h

theorem core_run_one (s : State) : Sys2Proof.core.run 1 s = step s := run_one Sys2Proof.core s

theorem popTurn_of_nil {s : State} (h : s.turns = []) : popTurn s = s := by
  cases s; subst h; rfl

theorem pend_of_not_busy {s : State} (h : s.busy = false) : s.pend = none := by
  simpa [State.busy] using h

theorem step_of_core {s : State} (h : nextAgent s = .core) : step s = coreTurn (popTurn s) := by
  simp [step, agentTurn, h]

theorem step_of_host {s : State} {op : HostOp} (h : HostAbout s op) : step s = hostOp op (popTurn s) := by
  obtain ⟨ha, ho⟩ := h
  simp [step, agentTurn, ha, hostTurn, ho]

/-- An admitted write takes its effect, and the host goes on. -/
theorem step_of_write {s : State} {slot : Slot} {v : Word} (h : HostWrites s slot v) :
    step s = .next (hostAdvance (busWrite slot v (popTurn s))) := by
  obtain ⟨hr, bytes, addr, e, hb, ha, he⟩ := h
  rw [step_of_host hb]
  simp [hostOp, hostStore, he, hr, ha]

/-- An admitted read gives its value to the host's variable, or is a hazard read. -/
theorem step_of_read {s : State} {slot : Slot} {x : Nat} (h : HostReads s slot x) :
    step s = match busRead slot s with
      | .error r => .fault r
      | .ok v => .next (hostAssign x v (popTurn s)) := by
  obtain ⟨hr, bytes, addr, hb, ha⟩ := h
  have hp : busRead slot (popTurn s) = busRead slot s := by cases slot <;> rfl
  rw [step_of_host hb]
  cases hv : busRead slot s <;>
    simp only [hostOp, hostLoad, popTurn_inReset, hr, ha, hp, hv, Bool.false_eq_true, if_false]

/-- A variable that has been assigned reads as what it was assigned, whatever the free values are. -/
theorem varValue_of_getVar {h : HostSide} {x : Nat} {v : Word} (hv : getVar x h.vars = some v) :
    varValue h x = v := by
  simp [varValue, hv]

/-- A frame has bytes 0 to 7, whatever the free values are. -/
theorem frameByteValue_of_byteOfWords {h : HostSide} {f0 f1 : Word} {k : Nat} {b : Byte}
    (hb : byteOfWords f0 f1 k = some b) : frameByteValue h f0 f1 k = b := by
  simp [frameByteValue, hb]

/-- A reply that has been received is what it was, whatever the free values are. -/
theorem replyValue_of_reply {h : HostSide} {r : List Byte} (hr : h.reply = some r) :
    replyValue h = r := by
  simp [replyValue, hr]

theorem getVar_setVar (x : Nat) (v : Word) (vars : List (Nat × Word)) :
    getVar x (setVar x v vars) = some v := by
  induction vars with
  | nil => simp [setVar, getVar]
  | cons a rest ih =>
    obtain ⟨y, u⟩ := a
    simp only [setVar]
    split
    · simp [getVar]
    · split <;> simp [getVar, *]

theorem getVar_setVar_of_ne {x y : Nat} (v : Word) (vars : List (Nat × Word)) (h : x ≠ y) :
    getVar x (setVar y v vars) = getVar x vars := by
  induction vars with
  | nil => simp [setVar, getVar, h]
  | cons a rest ih =>
    obtain ⟨z, u⟩ := a
    simp only [setVar]
    split
    · subst_vars; simp [getVar, h]
    · split
      · simp [getVar, h]
      · simp [getVar, ih]

end Sys2Proof.Machine
end

