-- ==== Sys2Proof/Tests/Slice0.lean ====
section
/-! SUPPORT. Small tests of the model against the spec's own words and vectors (95_test_vectors.md and
the examples of the rules named), and for every obligation with hypotheses a state that meets them. -/

namespace Sys2Proof.Tests.Slice0

open Sys2Proof Sys2Proof.Machine

/-- The next state of an outcome, if it is one. -/
def nextOf : Host.Outcome State Fault Refusal → Option State
  | .next t => some t
  | .fault _ => none
  | .refused _ => none

/-- The state after the core has run the command word `w`, first after reset. -/
def ran (w : Nat) : Option State := nextOf (step (State.reset.withFetchWord 32 w))

/-- A read of a slot, as an Option. -/
def readOf (slot : Slot) (s : State) : Option Word := (busRead slot s).toOption

/-- Reads of FRAME0, FRAME1, CRC and STATUS in the state after `w` has run. -/
def registersAfter (w : Nat) : Option (Option Word × Option Word × Option Word × Option Word) :=
  (ran w).map fun s => (readOf .frame0 s, readOf .frame1 s, readOf .crc s, readOf .status s)

/-! ## WellFormed smoke -/

theorem test_flashOn_duration_zero_ill_formed : (Instr.flashOn 3 0).wellFormed = false := by decide
theorem test_flashOff_duration_zero_ill_formed : (Instr.flashOff 255 0).wellFormed = false := by decide
theorem test_flashOn_longest_duration_well_formed : (Instr.flashOn 0 0xFFFF).wellFormed = true := by
  decide
theorem test_relayOn_index_out_of_relays_well_formed : (Instr.relayOn 0xFE).wellFormed = true := by
  decide

/-! ## Decoding: words written out from the patterns of R71 -/

theorem test_decode_relayOn : decode 0b0001_0000_0000_0010_0000_0000_0000_0000 = .ok (.relayOn 2) := rfl
theorem test_decode_relayOff : decode 0b0010_0000_0000_0111_0000_0000_0000_0000 = .ok (.relayOff 7) := rfl
theorem test_decode_relayFlip :
    decode 0b0011_0000_1111_1111_0000_0000_0000_0000 = .ok (.relayFlip 0xFF) := rfl
theorem test_decode_flashOn :
    decode 0b0100_0000_0000_0011_0000_0000_0000_1010 = .ok (.flashOn 3 10) := rfl
theorem test_decode_flashOff :
    decode 0b0101_0000_0000_0111_0001_0010_0011_0100 = .ok (.flashOff 7 0x1234) := rfl
theorem test_decode_stateQuery :
    decode 0b0110_0000_0000_0000_0000_0000_0000_0000 = .ok .stateQuery := rfl
theorem test_decode_crcInit : decode 0b1000_0000_0000_0000_0000_0000_0000_0000 = .ok .crcInit := rfl
theorem test_decode_crcUpd :
    decode 0b1001_0000_0000_0000_0000_0000_1010_1011 = .ok (.crcUpd 0xAB) := rfl

theorem test_encode_relayFlip : encode (.relayFlip 0x07) = 0x30070000 := rfl
theorem test_encode_flashOff : encode (.flashOff 0x07 0x000A) = 0x5007000A := rfl

/-- The illegal words of 95 section 6, each by the reason `decode` finds. -/
theorem test_decode_illegal_words :
    decode 0x00000000 = .error (.reservedOpcode 0x0) ∧ decode 0x70000000 = .error (.reservedOpcode 0x7) ∧
    decode 0xA0000000 = .error (.reservedOpcode 0xA) ∧ decode 0xF0000000 = .error (.reservedOpcode 0xF) ∧
    decode 0x11000000 = .error (.reservedBits 0x1) ∧ decode 0x10000001 = .error (.mustBeZero 0x1) ∧
    decode 0x1000FF00 = .error (.mustBeZero 0x1) ∧ decode 0x41000000 = .error (.reservedBits 0x1) ∧
    decode 0x60010000 = .error (.mustBeZero 0x6) ∧ decode 0x80000001 = .error (.mustBeZero 0x8) ∧
    decode 0x900100AB = .error (.mustBeZero 0x9) ∧ decode 0x90000100 = .error (.mustBeZero 0x9) :=
  ⟨rfl, rfl, rfl, rfl, rfl, rfl, rfl, rfl, rfl, rfl, rfl, rfl⟩

theorem test_decodeTableWord : decodeTableWord 32 0x4003000A = some (.flashOn 3 10) := by decide
theorem test_decodeTableWord_illegal : decodeTableWord 32 0x70000000 = none := by decide

/-! ## Vectors, one or two a command: FRAME0, FRAME1, CRC, STATUS after the command has run -/

/-- R130's example. -/
theorem test_relayOn_registers : registersAfter 0x10000000 =
    some (some 0x00000501, some 0x3A8C00FF, some 0x00003A8C, some 0x00000002) := by decide +kernel
/-- R131's example. -/
theorem test_relayOff_registers : registersAfter 0x20030000 =
    some (some 0x03000501, some 0xCA3D0000, some 0x0000CA3D, some 0x00000002) := by decide +kernel
/-- 95 section 3, RELAY.FLIP 0xFF. -/
theorem test_relayFlip_registers : registersAfter 0x30FF0000 =
    some (some 0xFF000501, some 0xAAC20055, some 0x0000AAC2, some 0x00000002) := by decide +kernel
/-- R135's example (WR section 8). -/
theorem test_flashOn_registers : registersAfter 0x4003000A =
    some (some 0x03020501, some 0x75BC0A00, some 0x000075BC, some 0x00000002) := by decide +kernel
/-- 95 section 4: the duration is big-endian (DUR 0x1234, CRC bytes 70 C4). -/
theorem test_flashOn_duration_big_endian : registersAfter 0x40071234 =
    some (some 0x07020501, some 0xC4703412, some 0x0000C470, some 0x00000002) := by decide +kernel
/-- 95 section 4, FLASH.OFF 7, 65535. -/
theorem test_flashOff_registers : registersAfter 0x5007FFFF =
    some (some 0x07040501, some 0x8B7CFFFF, some 0x00008B7C, some 0x00000002) := by decide +kernel
/-- R138's example. -/
theorem test_stateQuery_registers : registersAfter 0x60000000 =
    some (some 0x00000101, some 0xCC3D0800, some 0x0000CC3D, some 0x00000002) := by decide +kernel
/-- R110's example: CRC = 0x3A8C before. -/
theorem test_crcInit_resets_accumulator :
    (nextOf (execCrcInit { State.reset with crcHi := 0x3A, crcLo := 0x8C })).bind (readOf .crc) =
      some 0x0000FFFF := by decide +kernel
/-- R111's example. -/
theorem test_crcUpd_from_reset : registersAfter 0x90000001 =
    some (none, none, some 0x0000807E, some 0x00000000) := by decide +kernel
/-- 95 section 2.5: CRC.UPD goes on from a frame's CRC. -/
theorem test_crcUpd_continues_from_frame :
    (nextOf (execCrcUpd 0x8C { State.reset with crcHi := 0x3A, crcLo := 0x8C })).bind (readOf .crc) =
      some 0x0000003A := by decide +kernel
/-- A flash word of duration 0 is refused with RANGE, STATUS 0x2C, and nothing runs (95 section 6). -/
theorem test_flashOn_duration_zero_refused : registersAfter 0x40030000 =
    some (none, none, some 0x0000FFFF, some 0x0000002C) := by decide +kernel

/-- 95 section 2.1: the catalogue check value, the empty sequence and two single bytes. -/
theorem test_computeCRC_vectors :
    computeCRC [] = 0xFFFF ∧ computeCRC [0x00] = 0x40BF ∧ computeCRC [0xFF] = 0x00FF ∧
    computeCRC [0x31, 0x32, 0x33, 0x34, 0x35, 0x36, 0x37, 0x38, 0x39] = 0x4B37 := by decide +kernel

/-- R101's examples of the generator. -/
theorem test_crcT_examples :
    crcT 0x00 = 0x0000 ∧ crcT 0x01 = 0xC0C1 ∧ crcT 0x80 = 0xA001 ∧ crcT 0xFF = 0x4040 ∧
    crcTFromEight 0x01 = 0xC0C1 ∧ crcTFromEight 0xFF = 0x4040 := by decide +kernel

/-- 95 section 6: STATUS right after a CMD write, from reset. -/
theorem test_status_after_cmd_write :
    statusWord (issue 0x10000000 State.reset) = 0x01 ∧ statusWord (issue 0x70000000 State.reset) = 0x1C ∧
    statusWord (issue 0x50FF0000 State.reset) = 0x2C ∧ statusWord (issue 0x41000000 State.reset) = 0x1C ∧
    statusWord (issue 0x20000000 (issue 0x10000000 State.reset)) = 0x3D := by decide

/-- 95 section 6, step 4: a write of 0xFFFFFFFF to STATUS clears SERR only (0x3E becomes 0x36). -/
theorem test_status_write_clears_serr :
    statusWord (writeStatus 0xFFFFFFFF
      { State.reset with frame := some (sign queryPayload), err := true, serr := true, ecode := 3 }) =
      0x36 := by decide +kernel

/-- 95 section 8. -/
theorem test_cli_words :
    (CliCommand.relay 3 .on).instr.map encode = some 0x10020000 ∧
    (CliCommand.relay 256 .off).instr.map encode = some 0x20FF0000 ∧
    (CliCommand.flash 4 true 10).instr.map encode = some 0x4003000A ∧
    (CliCommand.flash 1 true 65536).instr.map encode = none := by decide

/-- 95 section 8: W7 and a reply of three bytes. -/
theorem test_decodeState_vectors :
    decodeState [0x01, 0x01, 0x01, 0x05] =
      .relayStates #v[true, false, true, false, false, false, false, false] ∧
    decodeState [0x01, 0x01, 0x01] = .malformedResponse := by decide

/-- R84's syntax, decimal and with a `0x` prefix. -/
theorem test_parse_lines :
    parseLine ['S', 'T', 'A', 'T', 'E', 'Q'] = some .stateQuery ∧
    parseLine ['F', 'L', 'A', 'S', 'H', '.', 'O', 'N', ' ', '3', ',', ' ', '0', 'x', '0', 'A'] =
      some (.flashOn 3 10) ∧
    asmInteger ['0', 'x', 'a', 'F', '9'] = some 0xAF9 ∧ asmInteger ['0', 'x', 'g'] = none ∧
    asmInteger ['2', '5', '5'] = some 255 ∧ asmInteger ['1', 'A'] = none := by decide +kernel

/-! ## Witnesses: states and operands that meet the hypotheses of each obligation -/

/-- `s` with the host about to do `op`. -/
def aboutTo (op : HostOp) (s : State) : State :=
  { s with turns := [.host], host := { s.host with prog := [op], pos := 0 } }

/-- The reset state with RELAY.ON 0 pending. -/
def busyState : State := { State.reset with pend := some (.relayOn 0) }

/-- A state whose frame buffer holds the state query's frame. -/
def framedState : State := { State.reset with frame := some (sign queryPayload), crcHi := 0xCC, crcLo := 0x3D }

/-- `framedState` with RELAY.OFF 0xFF pending. -/
def framedBusyState : State := { framedState with pend := some (.relayOff 0xFF) }

/-- The reset state while the reset input is held. -/
def heldState : State := { State.reset with inReset := true }

/-- A host about to do an operation at which it is not stuck is the one that steps. -/
theorem aboutTo_host {s : State} {op : HostOp} (h : opStuck op (aboutTo op s) = false) :
    HostAbout (aboutTo op s) op := by
  refine ⟨?_, rfl⟩
  have hs : (aboutTo op s).hostStuck = false := h
  have ht : (aboutTo op s).turns = [.host] := rfl
  simp [nextAgent, ht, hs]

/-- An admitted access is not stuck while no reset is held. -/
theorem accessStuck_eq_false {s : State} {slot : Slot} {off : Nat} (hr : s.inReset = false)
    (h : slotAt off = some slot) : accessStuck 4 (Config.base + off) s = false := by
  simp [accessStuck, hr, h]

/-- The host about to do an admitted write. -/
theorem aboutTo_write {s : State} {slot : Slot} (off : Nat) (v : Word) (hr : s.inReset = false)
    (h : slotAt off = some slot) : HostWrites (aboutTo (.sw off (.const v)) s) slot v :=
  ⟨hr, 4, Config.base + off, .const v, aboutTo_host (accessStuck_eq_false hr h), by simp [h], rfl⟩

/-- The host about to do an admitted read. -/
theorem aboutTo_read {s : State} {slot : Slot} (off x : Nat) (hr : s.inReset = false)
    (h : slotAt off = some slot) : HostReads (aboutTo (.lw off x) s) slot x :=
  ⟨hr, 4, Config.base + off, aboutTo_host (accessStuck_eq_false hr h), by simp [h]⟩

/-- An admitted write takes its step. -/
theorem aboutTo_write_next {s : State} {slot : Slot} (off : Nat) (v : Word) (hr : s.inReset = false)
    (h : slotAt off = some slot) : ∃ t, step (aboutTo (.sw off (.const v)) s) = .next t :=
  ⟨_, step_of_write (aboutTo_write off v hr h)⟩

theorem framedState_inv : Inv framedState where
  frameSigned f h := by
    simp only [framedState, Option.some.injEq] at h
    exact ⟨.stateQuery, queryPayload, rfl, rfl, h.symm⟩
  pendWellFormed i h := by simp [framedState, State.reset] at h
  errorConsistent := ⟨fun _ => rfl, fun h => by simp [framedState, State.reset] at h⟩
  inResetAtReset h := by simp [framedState, State.reset] at h

theorem framedBusyState_inv : Inv framedBusyState where
  frameSigned f h := framedState_inv.frameSigned f h
  pendWellFormed i h := by
    simp only [framedBusyState, Option.some.injEq] at h
    subst h; rfl
  errorConsistent := framedState_inv.errorConsistent
  inResetAtReset h := by simp [framedBusyState, framedState, State.reset] at h

theorem heldState_inv : Inv heldState where
  frameSigned f h := by simp [heldState, State.reset] at h
  pendWellFormed i h := by simp [heldState, State.reset] at h
  errorConsistent := ⟨fun _ => rfl, fun h => by simp [heldState, State.reset] at h⟩
  inResetAtReset _ := ⟨rfl, rfl, rfl, rfl, rfl, rfl, rfl⟩

theorem witness_EncodeOfDecodeIsIdentity :
    decode 0x10000000 = .ok (.relayOn 0) ∧ decode 0x50FFFFFF = .ok (.flashOff 0xFF 0xFFFF) ∧
    decode 0x900000FF = .ok (.crcUpd 0xFF) := ⟨rfl, rfl, rfl⟩

theorem witness_DecodeMatchesOpcodeTable :
    State.reset.busy = false ∧
    (0x40FF0000 : Word) &&& 0xFF000000 = 0x40000000 ∧ (0x40FF0000 : Word).extractLsb' 0 16 = 0 ∧
    (0x50000000 : Word) &&& 0xFF000000 = 0x50000000 ∧ (0x50000000 : Word).extractLsb' 0 16 = 0 := by
  decide

theorem witness_IllegalWordsAreTheReservedOnes :
    State.reset.busy = false ∧ (∃ e, decode 0x00000000 = .error e) ∧
    (∃ e, decode 0xFFFFFFFF = .error e) ∧ (∃ e, decode 0x90800000 = .error e) :=
  ⟨rfl, ⟨_, rfl⟩, ⟨_, rfl⟩, ⟨_, rfl⟩⟩

theorem witness_StreamingEqualsTheFunction : State.reset.busy = false ∧ framedState.busy = false := by
  decide +kernel

theorem witness_FrameCommandCompletionWrites :
    framePayload (.relayOn 0) = some #v[0x01, 0x05, 0x00, 0x00, 0xFF, 0x00] ∧
    framePayload (.flashOff 0xFF 0xFFFF) = some #v[0x01, 0x05, 0x04, 0xFF, 0xFF, 0xFF] ∧
    framePayload .stateQuery = some queryPayload := by decide

theorem witness_FlashCommandsBuildTheirFrames : (1 : Half) ≠ 0 ∧ (0xFFFF : Half) ≠ 0 := by decide

theorem witness_CompletionFrame :
    (∃ t, exec .stateQuery framedBusyState = .next t) ∧ (∃ t, exec .crcInit framedState = .next t) ∧
    (∃ t, exec (.crcUpd 0xFF) framedState = .next t) := ⟨⟨_, rfl⟩, ⟨_, rfl⟩, ⟨_, rfl⟩⟩

theorem witness_FrameIgnoresTheAccumulator :
    (∃ p, framePayload (.relayFlip 7) = some p) ∧ (∃ t, exec (.relayFlip 7) State.reset = .next t) ∧
    (∃ t, exec (.relayFlip 7) framedState = .next t) := ⟨⟨_, rfl⟩, ⟨_, rfl⟩, ⟨_, rfl⟩⟩

theorem witness_CompletedFrameCarriesStandardCrc :
    framePayload (.relayFlip 7) = some #v[0x01, 0x05, 0x00, 0x07, 0x55, 0x00] := by decide

theorem witness_PayloadsTellCommandsApart :
    framePayload (.flashOn 0 1) = some #v[0x01, 0x05, 0x02, 0x00, 0x00, 0x01] ∧
    framePayload (.relayOff 0xFF) = some #v[0x01, 0x05, 0x00, 0xFF, 0x00, 0x00] := by decide

/-- One write of each kind: refused with OVERRUN, ILLEGAL and RANGE, and accepted. -/
theorem witness_CommandWriteIsAcceptedOrRefused :
    (HostWrites (aboutTo (.sw 0 (.const 0x70000000)) busyState) .cmd 0x70000000 ∧
      (aboutTo (.sw 0 (.const 0x70000000)) busyState).busy = true) ∧
    (HostWrites (aboutTo (.sw 0 (.const 0x41000000)) State.reset) .cmd 0x41000000 ∧
      (aboutTo (.sw 0 (.const 0x41000000)) State.reset).busy = false ∧
      ∃ e, decode 0x41000000 = .error e) ∧
    (HostWrites (aboutTo (.sw 0 (.const 0x40FF0000)) State.reset) .cmd 0x40FF0000 ∧
      (aboutTo (.sw 0 (.const 0x40FF0000)) State.reset).busy = false ∧
      decode 0x40FF0000 = .ok (.flashOn 0xFF 0)) ∧
    (HostWrites (aboutTo (.sw 0 (.const 0x50000001)) State.reset) .cmd 0x50000001 ∧
      (aboutTo (.sw 0 (.const 0x50000001)) State.reset).busy = false ∧
      decode 0x50000001 = .ok (.flashOff 0 1) ∧
      ∀ idx, Instr.flashOff 0 1 ≠ .flashOn idx 0 ∧ Instr.flashOff 0 1 ≠ .flashOff idx 0) :=
  ⟨⟨aboutTo_write 0 _ rfl rfl, rfl⟩, ⟨aboutTo_write 0 _ rfl rfl, rfl, _, rfl⟩,
    ⟨aboutTo_write 0 _ rfl rfl, rfl, rfl⟩, ⟨aboutTo_write 0 _ rfl rfl, rfl, rfl, by simp⟩⟩

theorem witness_EveryRelayIndexIsEmbedded :
    State.reset.busy = false ∧ (1 : Half) ≠ 0 ∧ (0 : Byte).toNat ≤ 7 ∧ (7 : Byte).toNat ≤ 7 := by decide

theorem witness_StatusReadShowsEveryFlag :
    Inv framedState ∧ busRead .status framedState = .ok 0x2 ∧ (0x2 : Word)[2] = false :=
  ⟨framedState_inv, by rfl, by decide⟩

theorem witness_StatusWriteClearsOnlySerr :
    HostWrites (aboutTo (.sw 4 (.const 0x8)) busyState) .status 0x8 ∧
    HostWrites (aboutTo (.sw 4 (.const 0xFFFFFFF7)) busyState) .status 0xFFFFFFF7 ∧
    HostReads (aboutTo (.lw 4 0) busyState) .status 0 :=
  ⟨aboutTo_write 4 _ rfl rfl, aboutTo_write 4 _ rfl rfl, aboutTo_read 4 0 rfl rfl⟩

theorem witness_CrcReadReturnsTheAccumulator :
    framedState.busy = false ∧ busyState.busy = true := by decide +kernel

theorem witness_FrameReadsPackTheFrame :
    (framedState.busy = false ∧ framedState.frame = some (sign queryPayload)) ∧
    framedBusyState.busy = true ∧ State.reset.fvalid = false := ⟨⟨rfl, rfl⟩, rfl, rfl⟩

theorem witness_HazardReadsFault :
    (HostReads (aboutTo (.lw 0x08 0) framedBusyState) .crc 0 ∧
      (aboutTo (.lw 0x08 0) framedBusyState).busy = true) ∧
    (HostReads (aboutTo (.lw 0x0C 0) framedBusyState) .frame0 0 ∧
      (aboutTo (.lw 0x0C 0) framedBusyState).busy = true) ∧
    (HostReads (aboutTo (.lw 0x10 0) framedBusyState) .frame1 0 ∧
      (aboutTo (.lw 0x10 0) framedBusyState).busy = true) ∧
    (HostReads (aboutTo (.lw 0x0C 0) busyState) .frame0 0 ∧
      (aboutTo (.lw 0x0C 0) busyState).busy = true ∧
      (aboutTo (.lw 0x0C 0) busyState).fvalid = false) ∧
    (HostReads (aboutTo (.lw 0x0C 0) State.reset) .frame0 0 ∧
      (aboutTo (.lw 0x0C 0) State.reset).busy = false ∧
      (aboutTo (.lw 0x0C 0) State.reset).fvalid = false) ∧
    (HostReads (aboutTo (.lw 0x10 0) State.reset) .frame1 0 ∧
      (aboutTo (.lw 0x10 0) State.reset).busy = false ∧
      (aboutTo (.lw 0x10 0) State.reset).fvalid = false) ∧
    HostReads (aboutTo (.lw 0x04 0) busyState) .status 0 ∧
    (HostReads (aboutTo (.lw 0x08 0) State.reset) .crc 0 ∧
      (aboutTo (.lw 0x08 0) State.reset).busy = false) :=
  ⟨⟨aboutTo_read _ _ rfl rfl, rfl⟩, ⟨aboutTo_read _ _ rfl rfl, rfl⟩, ⟨aboutTo_read _ _ rfl rfl, rfl⟩,
    ⟨aboutTo_read _ _ rfl rfl, rfl, rfl⟩, ⟨aboutTo_read _ _ rfl rfl, rfl, rfl⟩,
    ⟨aboutTo_read _ _ rfl rfl, rfl, rfl⟩,
    aboutTo_read _ _ rfl rfl, ⟨aboutTo_read _ _ rfl rfl, rfl⟩⟩

/-- The first and last slot are admitted; a byte access and one past the window are not. -/
theorem witness_OnlyWindowAccessesAreAdmitted :
    admitted 4 (Config.base + 0x00) = some .cmd ∧ admitted 4 (Config.base + 0x1C) = some .reserved1C ∧
    (State.reset.inReset = false ∧
      HostAbout (aboutTo (.store 1 Config.base (.const 0)) State.reset)
        (.store 1 Config.base (.const 0)) ∧
      admitted 1 Config.base = none) ∧
    (HostAbout (aboutTo (.load 4 (Config.base + 0x20) 0) State.reset)
        (.load 4 (Config.base + 0x20) 0) ∧
      admitted 4 (Config.base + 0x20) = none) ∧
    admitted 4 (Config.base + 0x02) = none :=
  ⟨admitted_base_add 0x00, admitted_base_add 0x1C, ⟨rfl, ⟨rfl, rfl⟩, by simp [admitted]⟩,
    ⟨⟨rfl, rfl⟩, admitted_base_add 0x20⟩, admitted_base_add 0x02⟩

theorem witness_ReadsHaveNoSideEffects :
    (HostReads (aboutTo (.lw 0x0C 0) framedState) .frame0 0 ∧
      ∃ t, step (aboutTo (.lw 0x0C 0) framedState) = .next t) ∧
    HostWrites (aboutTo (.sw 0x00 (.const 0x60000000)) framedState) .cmd 0x60000000 ∧
    (HostWrites (aboutTo (.sw 0x04 (.const 0x8)) framedState) .status 0x8 ∧ (0x8 : Word)[3] = true) ∧
    HostWrites (aboutTo (.sw 0x08 (.const 0xFFFFFFFF)) framedState) .crc 0xFFFFFFFF ∧
    (HostWrites (aboutTo (.sw 0x04 (.const 0xFFFFFFF7)) framedState) .status 0xFFFFFFF7 ∧
      (0xFFFFFFF7 : Word)[3] = false) ∧
    (framedState.busy = false ∧ decode 0x40000001 = .ok (.flashOn 0 1) ∧
      (Instr.flashOn 0 1).wellFormed = true) :=
  ⟨⟨aboutTo_read _ _ rfl rfl, _, step_of_read (aboutTo_read (slot := .frame0) _ _ rfl rfl)⟩,
    aboutTo_write _ _ rfl rfl, ⟨aboutTo_write _ _ rfl rfl, rfl⟩, aboutTo_write _ _ rfl rfl,
    ⟨aboutTo_write _ _ rfl rfl, rfl⟩, ⟨rfl, rfl, rfl⟩⟩

theorem witness_ResetSetsEveryPieceOfState :
    HostAbout (aboutTo .reset framedBusyState) .reset := ⟨rfl, rfl⟩

theorem witness_AccessInResetIsStuck :
    HostAbout (aboutTo .assertReset framedBusyState) .assertReset ∧
    ((aboutTo (.sw 0 (.const 0)) heldState).inReset = true ∧
      HostAbout (aboutTo (.sw 0 (.const 0)) heldState) (.store 4 (Config.base + 0) (.const 0))) ∧
    ((aboutTo (.lw 4 0) heldState).inReset = true ∧
      HostAbout (aboutTo (.lw 4 0) heldState) (.load 4 (Config.base + 4) 0)) ∧
    ((aboutTo .wait heldState).inReset = true ∧ HostAbout (aboutTo .wait heldState) .wait) ∧
    (Inv (aboutTo .releaseReset heldState) ∧ (aboutTo .releaseReset heldState).inReset = true ∧
      HostAbout (aboutTo .releaseReset heldState) .releaseReset) :=
  ⟨⟨rfl, rfl⟩, ⟨rfl, rfl, rfl⟩, ⟨rfl, rfl, rfl⟩, ⟨rfl, rfl, rfl⟩,
    ⟨heldState_inv.frameSigned, heldState_inv.pendWellFormed, heldState_inv.errorConsistent,
      heldState_inv.inResetAtReset⟩, rfl, ⟨rfl, rfl⟩⟩

theorem witness_StepRunsThePendingCommand :
    framedBusyState.pend = some (.relayOff 0xFF) ∧ nextAgent framedBusyState = .core := ⟨rfl, rfl⟩

theorem witness_WrittenCommandRunsAtCoreTurn :
    let s := { aboutTo (.sw 0 (.const (encode (.flashOn 0xFF 1)))) State.reset with
      turns := [.host, .core] }
    (Instr.flashOn 0xFF 1).wellFormed = true ∧ s.busy = false ∧
    HostWrites s .cmd (encode (.flashOn 0xFF 1)) ∧ s.turns = .host :: .core :: [] :=
  ⟨rfl, rfl, ⟨rfl, 4, Config.base + 0, .const _, ⟨rfl, rfl⟩, admitted_base_add 0, rfl⟩, rfl⟩

theorem witness_FetchedWordRunsNext :
    (Instr.flashOff 0xFF 1).wellFormed = true ∧ (Instr.flashOff 0xFF 0).wellFormed = false := by decide

theorem witness_CoreTurnNeverFails :
    nextAgent framedBusyState = .core ∧ nextAgent { State.reset with turns := [.core] } = .core :=
  ⟨rfl, rfl⟩

theorem witness_IdleBlockKeepsItsState :
    (State.reset.busy = false ∧ nextAgent { State.reset with turns := [.core] } = .core) ∧
    (State.reset.busy = false ∧ nextAgent State.reset = .host ∧ State.reset.hostNext = none) ∧
    ((aboutTo (.assign 0 (.const 1)) framedState).busy = false ∧
      HostAbout (aboutTo (.assign 0 (.const 1)) framedState) (.assign 0 (.const 1)) ∧
      (∃ t, step (aboutTo (.assign 0 (.const 1)) framedState) = .next t) ∧
      ∀ bytes addr e, HostOp.assign 0 (.const 1) ≠ .store bytes addr e) :=
  ⟨⟨rfl, rfl⟩, ⟨rfl, rfl, rfl⟩, rfl, ⟨rfl, rfl⟩, ⟨_, rfl⟩, by simp⟩

theorem witness_PendingCommandCompletesByDefault :
    let s := { aboutTo .wait busyState with turns := [] }
    s.turns = [] ∧ s.pend = some (.relayOn 0) ∧ s.inReset = false ∧ s.hostNext = some .wait :=
  ⟨rfl, rfl, rfl, rfl⟩

/-- A byte access, an access while reset is held, a wait then, and a hung receive; with a command pending
and with none. -/
theorem witness_StuckHostLetsTheCoreComplete :
    ((aboutTo (.store 1 Config.base (.const 0)) busyState).hostNext =
        some (.store 1 Config.base (.const 0)) ∧
      admitted 1 Config.base = none ∧
      (aboutTo (.store 1 Config.base (.const 0)) busyState).pend = some (.relayOn 0)) ∧
    ((aboutTo (.lw 4 0) heldState).hostNext = some (.load 4 (Config.base + 4) 0) ∧
      (aboutTo (.lw 4 0) heldState).inReset = true ∧ (aboutTo (.lw 4 0) heldState).pend = none ∧
      nextAgent (aboutTo (.lw 4 0) heldState) = .host) ∧
    ((aboutTo .wait heldState).hostNext = some .wait ∧ (aboutTo .wait heldState).inReset = true) ∧
    ((aboutTo .receive busyState).hostNext = some .receive ∧
      (aboutTo .receive busyState).host.replies = [] ∧
      (aboutTo .receive busyState).pend = some (.relayOn 0)) :=
  ⟨⟨rfl, by simp [admitted], rfl⟩, ⟨rfl, rfl, rfl, rfl⟩, ⟨rfl, rfl⟩, rfl, rfl, rfl⟩

theorem witness_PendingCommandEventuallyCompletes :
    busyState.pend = some (.relayOn 0) ∧ (aboutTo .reset framedBusyState).pend = some (.relayOff 0xFF) ∧
    (aboutTo (.lw 0x08 0) busyState).pend = some (.relayOn 0) := ⟨rfl, rfl, rfl⟩

theorem witness_WaitLastsUntilTheCoreSteps :
    let s := { aboutTo .wait busyState with turns := [.host, .host, .core, .host] }
    s.pend = some (.relayOn 0) ∧ s.inReset = false ∧ s.hostNext = some .wait ∧
    s.turns = List.replicate 2 .host ++ .core :: [.host] := ⟨rfl, rfl, rfl, rfl⟩

theorem witness_CrcBlockRunComputesTheCrc :
    let s := { framedState with
      host := { HostSide.empty with
        prog := [HostOp.decodeReply] ++ (Pseudo.crcBlock [0x00, 0xFF]).hostOps ++ [HostOp.reset], pos := 1 } }
    s.turns = [] ∧ s.busy = false ∧ s.inReset = false ∧
    s.host.prog = [HostOp.decodeReply] ++ (Pseudo.crcBlock [0x00, 0xFF]).hostOps ++ [HostOp.reset] ∧
    s.host.pos = [HostOp.decodeReply].length := ⟨rfl, rfl, rfl, rfl, rfl⟩

theorem witness_EveryStepKeepsTheInvariant :
    Inv framedBusyState ∧ ∃ t, step framedBusyState = .next t := ⟨framedBusyState_inv, _, rfl⟩

theorem witness_ValidFrameHoldsItsCrc : Inv framedState ∧ framedState.fvalid = true :=
  ⟨framedState_inv, rfl⟩

/-- A step of each kind of row: reset, a CMD write, a completion, a STATUS write, a read. -/
theorem witness_EveryStepIsARowOfTheWriteMatrix :
    (∃ t, step (aboutTo .reset framedBusyState) = .next t) ∧
    (∃ t, step (aboutTo (.sw 0 (.const 0x60000000)) State.reset) = .next t) ∧
    (∃ t, step framedBusyState = .next t) ∧
    (∃ t, step (aboutTo (.sw 4 (.const 0x8)) framedState) = .next t) ∧
    (∃ t, step (aboutTo (.lw 4 0) framedState) = .next t) :=
  ⟨⟨_, rfl⟩, aboutTo_write_next _ _ rfl (slot := .cmd) rfl, ⟨_, rfl⟩,
    aboutTo_write_next _ _ rfl (slot := .status) rfl,
    ⟨_, step_of_read (aboutTo_read (slot := .status) _ _ rfl rfl)⟩⟩

theorem witness_OnlyResetClearsFvalid :
    framePayload (.relayOff 0xFF) = some #v[0x01, 0x05, 0x00, 0xFF, 0x00, 0x00] ∧
    (∃ t, step (aboutTo .reset framedBusyState) = .next t ∧
      (aboutTo .reset framedBusyState).fvalid = true ∧ t.fvalid = false) ∧
    (∃ t, step busyState = .next t ∧ busyState.fvalid = false ∧ t.fvalid = true) :=
  ⟨by decide, ⟨_, rfl, rfl, rfl⟩, ⟨_, rfl, rfl, rfl⟩⟩

theorem witness_OnlyCommandsAndResetWriteTheAccumulator :
    (∃ t, step (aboutTo .reset framedState) = .next t ∧
      t.crcHi ≠ (aboutTo .reset framedState).crcHi) ∧
    (∃ t, step { framedState with pend := some .crcInit } = .next t ∧
      t.crcLo ≠ framedState.crcLo) ∧
    framedState.busy = false :=
  ⟨⟨_, rfl, by decide +kernel⟩, ⟨_, rfl, by decide +kernel⟩, rfl⟩

/-- An accepted CMD write, one refused for each cause, and a STATUS write and a reset that clear SERR. -/
theorem witness_ErrorFlagsFollowCommandWrites :
    (HostWrites (aboutTo (.sw 0 (.const 0x60000000)) State.reset) .cmd 0x60000000 ∧
      (aboutTo (.sw 0 (.const 0x60000000)) State.reset).busy = false ∧
      ∃ i, decode 0x60000000 = .ok i ∧ i.wellFormed = true) ∧
    (HostWrites (aboutTo (.sw 0 (.const 0)) busyState) .cmd 0 ∧
      (aboutTo (.sw 0 (.const 0)) busyState).busy = true) ∧
    (HostWrites (aboutTo (.sw 0 (.const 0)) State.reset) .cmd 0 ∧
      (aboutTo (.sw 0 (.const 0)) State.reset).busy = false ∧ ∃ e, decode 0 = .error e) ∧
    (HostWrites (aboutTo (.sw 0 (.const 0x50FF0000)) State.reset) .cmd 0x50FF0000 ∧
      (aboutTo (.sw 0 (.const 0x50FF0000)) State.reset).busy = false ∧
      ∃ i, decode 0x50FF0000 = .ok i ∧ i.wellFormed = false) ∧
    (∃ t, step (aboutTo .reset { framedState with err := true, ecode := 1 }) = .next t ∧
      t.err ≠ true ∧ t.ecode ≠ 1) ∧
    (∃ t, step (aboutTo .reset { framedState with serr := true }) = .next t ∧ t.serr = false) ∧
    (∃ t, step (aboutTo (.sw 4 (.const 0x8)) { framedState with serr := true }) = .next t ∧
      t.serr = false) :=
  ⟨⟨aboutTo_write 0 _ rfl rfl, rfl, _, rfl, rfl⟩, ⟨aboutTo_write 0 _ rfl rfl, rfl⟩,
    ⟨aboutTo_write 0 _ rfl rfl, rfl, _, rfl⟩, ⟨aboutTo_write 0 _ rfl rfl, rfl, _, rfl, rfl⟩,
    ⟨_, rfl, by decide, by decide⟩, ⟨_, rfl, rfl⟩,
    ⟨_, step_of_write (aboutTo_write (slot := .status) 4 _ rfl rfl), rfl⟩⟩

/-- The three cases: a refused CMD write, the completion, a reset. -/
theorem witness_PendingCommandIsNeverReplaced :
    ((aboutTo (.sw 0 (.const 0x60000000)) busyState).pend = some (.relayOn 0) ∧
      ∃ t, step (aboutTo (.sw 0 (.const 0x60000000)) busyState) = .next t) ∧
    (busyState.pend = some (.relayOn 0) ∧ ∃ t, step busyState = .next t) ∧
    ((aboutTo .reset busyState).pend = some (.relayOn 0) ∧
      ∃ t, step (aboutTo .reset busyState) = .next t) :=
  ⟨⟨rfl, aboutTo_write_next _ _ rfl (slot := .cmd) rfl⟩, ⟨rfl, _, rfl⟩, ⟨rfl, _, rfl⟩⟩

theorem witness_DutifulHostMeetsNoBlockFault :
    HostDutyKept (aboutTo .receive framedState) ∧
    step (aboutTo .receive framedState) = .fault .hungReceive := ⟨trivial, rfl⟩

/-- An assignment from a variable never assigned, a branch on one, a SEND, a RECV of a reply longer than
1024 bytes and of a transport failure, and a decode with and without a reply. -/
theorem witness_HostComputationsAlwaysRun :
    HostAbout (aboutTo (.assign 0 (.var 1)) State.reset) (.assign 0 (.var 1)) ∧
    HostAbout (aboutTo (.bne 0 (.const 0) 7) State.reset) (.bne 0 (.const 0) 7) ∧
    HostAbout (aboutTo (.send (Vector.replicate 8 (.const 0x1FF))) State.reset)
      (.send (Vector.replicate 8 (.const 0x1FF))) ∧
    HostAbout (aboutTo .decodeReply State.reset) .decodeReply ∧
    (let s := { State.reset with
      host := { HostSide.empty with
        prog := [.receive], replies := [.bytes (List.replicate 1025 0x01), .transportFailure] } }
     HostAbout s .receive ∧
       s.host.replies = .bytes (List.replicate 1025 0x01) :: [.transportFailure]) ∧
    (let s := { State.reset with
      host := { HostSide.empty with prog := [.receive], replies := [.transportFailure] } }
     HostAbout s .receive ∧ s.host.replies = .transportFailure :: []) ∧
    (let s := { framedState with
      turns := [.host]
      host := { HostSide.empty with
        prog := [.decodeReply], vars := [(3, 0x5)], reply := some [0x01, 0x01, 0x01] } }
     HostAbout s .decodeReply ∧ s.host.reply = some [0x01, 0x01, 0x01] ∧
       getVar 3 s.host.vars = some 0x5 ∧ getVar 4 s.host.vars = none) :=
  ⟨⟨rfl, rfl⟩, ⟨rfl, rfl⟩, ⟨rfl, rfl⟩, ⟨rfl, rfl⟩, ⟨⟨rfl, rfl⟩, rfl⟩, ⟨⟨rfl, rfl⟩, rfl⟩,
    ⟨rfl, rfl⟩, rfl, rfl, rfl⟩

/-- Each clause at the ends of its range. -/
theorem witness_CliCommandsMapToBlockCommands :
    ((1 : Nat) ≤ 1 ∧ 1 ≤ 8 ∧ 8 ≤ 8) ∧ ((1 : Nat) ≤ 1 ∧ (1 : Nat) ≤ 65535 ∧ (65535 : Nat) ≤ 65535) ∧
    ((8 : Nat) < 9 ∧ (9 : Nat) ≠ 256) ∧ ((8 : Nat) < 257 ∧ (257 : Nat) ≠ 256) ∧ (0 : Nat) ≠ 256 ∧
    (65535 : Nat) < 65536 ∧
    (CliCommand.flash 8 false 65535).instr = some (.flashOff 7 0xFFFF) := by decide

theorem witness_ReplyDecodeReadsByteThree :
    ([] : List Byte).length < 4 ∧ ([0x01, 0x01, 0x01] : List Byte).length < 4 := by decide

theorem witness_HostSendsTheFrameBuffer :
    let op := HostOp.send (Vector.ofFn fun k : Fin 8 =>
      .frameByte (.var 2) (.var 3) (.const (BitVec.ofNat 32 k)))
    let s := { framedState with
      turns := [.host]
      host := { HostSide.empty with prog := [op], vars := [(2, 0x00000101), (3, 0xCC3D0800)] } }
    s.frame = some (sign queryPayload) ∧
    busRead .frame0 s = .ok 0x00000101 ∧ busRead .frame1 s = .ok 0xCC3D0800 ∧
    getVar 2 s.host.vars = some 0x00000101 ∧ getVar 3 s.host.vars = some 0xCC3D0800 ∧
    HostAbout s op := ⟨rfl, by rfl, by rfl, rfl, rfl, rfl, rfl⟩

end Sys2Proof.Tests.Slice0
end

section
/-! PROOFS. The literal CRC tables of R102 are the generator of R101, row by row, and what a read of
them therefore returns. -/

namespace Sys2Proof.Machine

/-- The bytes `g 0, g 1, ..., g 255`: a ROM that holds `g`. -/
def romOf (g : Byte → Byte) : List Byte := (List.range 256).map fun n => g (BitVec.ofNat 8 n)

/-- A read of the ROM that holds `g`, with any 8-bit index, is `g` of the index (R104). -/
theorem romOf_getD (g : Byte → Byte) (i : Byte) : (romOf g).getD i.toNat 0 = g i := by
  have hi : i.toNat < 256 := i.isLt
  simp [romOf, List.getD_eq_getElem?_getD, hi]

/-- The transcription of `CRCTableHigh` in R102, checked against the generator. -/
theorem crcTableHighRows_eq_romOf : crcTableHighRows = romOf fun i => lo8 (crcT i) := by
  decide +kernel

/-- The transcription of `CRCTableLow` in R102, checked against the generator. -/
theorem crcTableLowRows_eq_romOf : crcTableLowRows = romOf fun i => hi8 (crcT i) := by
  decide +kernel

theorem crcTableHigh_eq_lo8_crcT (i : Byte) : crcTableHigh i = lo8 (crcT i) := by
  rw [crcTableHigh, crcTableHighRows_eq_romOf, romOf_getD]

theorem crcTableLow_eq_hi8_crcT (i : Byte) : crcTableLow i = hi8 (crcT i) := by
  rw [crcTableLow, crcTableLowRows_eq_romOf, romOf_getD]

end Sys2Proof.Machine

namespace Sys2Proof
open Machine

/-- Settles O7: each ROM is the list of the generator's bytes, and a read returns the entry at its
index. -/
theorem tablesHoldGeneratorBytes : Obligations.TablesHoldGeneratorBytes :=
  fun i => ⟨crcTableHigh_eq_lo8_crcT i, crcTableLow_eq_hi8_crcT i⟩

end Sys2Proof
end

section
/-! PROOFS. What one step of the machine does to the block, said once: a reset, a write of the host, the
completion of the pending command, or nothing (10_state.md R39); and that each of them keeps the
invariant. -/

namespace Sys2Proof.Machine

/-- The host steps next, and its operation is a reset event, atomic or asserted (R200, R201). -/
def HostResets (s : State) : Prop :=
  nextAgent s = .host ∧ (s.hostNext = some .reset ∨ s.hostNext = some .assertReset)

/-- No event of the write matrix is next: no admitted write, no completion and no reset. -/
structure BlockQuiet (s : State) : Prop where
  noWrite : ∀ slot v, ¬ HostWrites s slot v
  noCompletion : nextAgent s = .core → s.pend = none
  noReset : ¬ HostResets s

/-- The four ways a step from `s` to `t` can treat the block.  `blockStep_of_step` ties it to `step`. -/
inductive BlockStep (s t : State) : Prop
  | reset (resets : HostResets s) (atReset : BlockAtReset t)
  | write (slot : Slot) (v : Word) (writes : HostWrites s slot v)
      (eq : t = hostAdvance (busWrite slot v (popTurn s)))
  | completion (i : Instr) (core : nextAgent s = .core) (pend : s.pend = some i)
      (eq : exec i (popTurn s) = .next t)
  | quiet (quiet : BlockQuiet s) (unchanged : BlockUnchanged s t)
      (held : t.inReset = true → s.inReset = true)

theorem blockAtReset_resetBlock (s : State) (b : Bool) :
    BlockAtReset (hostAdvance { resetBlock s with inReset := b }) :=
  ⟨rfl, rfl, rfl, rfl, rfl, rfl, rfl⟩

theorem HostWrites.nextAgent_eq {s : State} {slot : Slot} {v : Word} (h : HostWrites s slot v) :
    nextAgent s = .host := by
  obtain ⟨-, bytes, addr, e, ⟨ha, -⟩, -, -⟩ := h
  exact ha

theorem HostWrites.hostNext_eq {s : State} {slot : Slot} {v : Word} (h : HostWrites s slot v) :
    ∃ bytes addr e, s.hostNext = some (.store bytes addr e) := by
  obtain ⟨-, bytes, addr, e, ⟨-, ho⟩, -, -⟩ := h
  exact ⟨bytes, addr, e, ho⟩

theorem HostWrites.inReset_eq {s : State} {slot : Slot} {v : Word} (h : HostWrites s slot v) :
    s.inReset = false := h.1

/-- The host writes one slot with one value in a step. -/
theorem HostWrites.unique {s : State} {slot slot' : Slot} {v v' : Word} (h : HostWrites s slot v)
    (h' : HostWrites s slot' v') : slot = slot' ∧ v = v' := by
  obtain ⟨-, bytes, addr, e, ⟨-, ho⟩, ha, he⟩ := h
  obtain ⟨-, bytes', addr', e', ⟨-, ho'⟩, ha', he'⟩ := h'
  obtain ⟨rfl, rfl, rfl⟩ : bytes = bytes' ∧ addr = addr' ∧ e = e' := by simpa [ho] using ho'
  exact ⟨Option.some.inj (ha.symm.trans ha'), he.symm.trans he'⟩

theorem HostWrites.not_hostResets {s : State} {slot : Slot} {v : Word} (h : HostWrites s slot v) :
    ¬ HostResets s := by
  obtain ⟨bytes, addr, e, ho⟩ := h.hostNext_eq
  simp [HostResets, ho]

theorem blockQuiet_of_idleCore {s : State} (ha : nextAgent s = .core) (hp : s.pend = none) :
    BlockQuiet s where
  noWrite slot v hw := by simp [hw.nextAgent_eq] at ha
  noCompletion _ := hp
  noReset hr := by simp [hr.1] at ha

/-- A host whose next operation is neither a store nor a reset event, or that has none left, leaves the
block alone. -/
theorem blockQuiet_of_host {s : State} (ha : nextAgent s = .host)
    (hs : ∀ bytes addr e, s.hostNext ≠ some (.store bytes addr e)) (hr : s.hostNext ≠ some .reset)
    (hg : s.hostNext ≠ some .assertReset) : BlockQuiet s where
  noWrite slot v hw := by
    obtain ⟨bytes, addr, e, ho⟩ := hw.hostNext_eq
    exact hs bytes addr e ho
  noCompletion hc := by simp [ha] at hc
  noReset h := h.2.elim hr hg

/-- Every step is one of the four of `BlockStep`. -/
theorem blockStep_of_step {s t : State} (h : step s = .next t) : BlockStep s t := by
  obtain ⟨ha, op, ho, hop⟩ | ⟨ha, ho, rfl⟩ | ⟨ha, hc⟩ := step_cases h
  · obtain ⟨bytes, addr, e, slot, v, rfl, hr, had, he, rfl⟩ | ⟨rfl, rfl⟩ | ⟨rfl, rfl⟩ | ⟨rfl, rfl⟩ |
      ⟨⟨hs, hr, hg, -⟩, host, rfl⟩ := hostOp_cases hop
    · exact .write slot v ⟨hr, bytes, addr, e, ⟨ha, ho⟩, had, he⟩ rfl
    · exact .reset ⟨ha, .inl ho⟩ (blockAtReset_resetBlock _ _)
    · exact .reset ⟨ha, .inr ho⟩ (blockAtReset_resetBlock _ _)
    · exact .quiet (blockQuiet_of_host ha (by simp [ho]) (by simp [ho]) (by simp [ho]))
        ⟨rfl, rfl, rfl, rfl, rfl, rfl, rfl⟩ nofun
    · exact .quiet (blockQuiet_of_host ha (by simpa [ho] using hs) (by simpa [ho] using hr)
        (by simpa [ho] using hg)) ⟨rfl, rfl, rfl, rfl, rfl, rfl, rfl⟩ id
  · exact .quiet (blockQuiet_of_host ha (by simp [ho]) (by simp [ho]) (by simp [ho]))
      ⟨rfl, rfl, rfl, rfl, rfl, rfl, rfl⟩ id
  · obtain ⟨hp, hc'⟩ | ⟨i, hp, hc'⟩ := coreTurn_cases (popTurn s)
    · obtain rfl : popTurn s = t := by simpa [hc'] using hc
      exact .quiet (blockQuiet_of_idleCore ha hp) ⟨rfl, rfl, rfl, rfl, rfl, rfl, rfl⟩ id
    · exact .completion i ha hp (hc'.symm.trans hc)

/-! The invariant. -/

theorem errorCode_mem (c : ErrorCause) : errorCode c = 1 ∨ errorCode c = 2 ∨ errorCode c = 3 := by
  cases c <;> simp [errorCode]

theorem inv_of_blockAtReset {s : State} (h : BlockAtReset s) : Inv s := by
  have hall := h
  obtain ⟨-, -, hf, hp, he, hc, -⟩ := h
  exact ⟨by simp [hf], by simp [hp], by simp [ErrorConsistent, he, hc], fun _ => hall⟩

/-- The invariant speaks of the block and the reset input only. -/
theorem Inv.of_blockUnchanged {s t : State} (hs : Inv s) (h : BlockUnchanged s t)
    (hr : t.inReset = true → s.inReset = true) : Inv t := by
  obtain ⟨hhi, hlo, hf, hp, he, hc, hse⟩ := h
  refine ⟨?_, ?_, ?_, fun ht => ?_⟩
  · simpa [hf] using hs.frameSigned
  · simpa [hp] using hs.pendWellFormed
  · simpa [ErrorConsistent, he, hc] using hs.errorConsistent
  · simpa [BlockAtReset, hhi, hlo, hf, hp, he, hc, hse] using hs.inResetAtReset (hr ht)

/-- A pending command is never held back by a reset: an asserted reset has emptied PEND (R200). -/
theorem Inv.inReset_eq_false {s : State} {i : Instr} (hs : Inv s) (hp : s.pend = some i) :
    s.inReset = false := by
  by_contra hr
  obtain ⟨-, -, -, hn, -⟩ := hs.inResetAtReset (by simpa using hr)
  simp [hp] at hn

theorem Inv.raiseError {s : State} (hs : Inv s) (c : ErrorCause) (hr : s.inReset = false) :
    Inv (raiseError c s) where
  frameSigned := hs.frameSigned
  pendWellFormed := hs.pendWellFormed
  errorConsistent := ⟨nofun, fun _ => errorCode_mem c⟩
  inResetAtReset h := by simp [hr] at h

theorem Inv.accept {s : State} {i : Instr} (hs : Inv s) (hw : i.wellFormed = true)
    (hr : s.inReset = false) : Inv (accept i s) where
  frameSigned := hs.frameSigned
  pendWellFormed j hj := by
    obtain rfl : i = j := by simpa using hj
    exact hw
  errorConsistent := ⟨fun _ => rfl, nofun⟩
  inResetAtReset h := by simp [hr] at h

theorem Inv.issue {s : State} (hs : Inv s) (w : Word) (hr : s.inReset = false) : Inv (issue w s) := by
  obtain ⟨-, h⟩ | ⟨-, -, h⟩ | ⟨-, -, h⟩ | ⟨-, i, -, hw, h⟩ := issue_cases w s <;> rw [h]
  · exact hs.raiseError .overrun hr
  · exact hs.raiseError .illegal hr
  · exact hs.raiseError .range hr
  · exact hs.accept hw hr

theorem Inv.clearStickyError {s : State} (hs : Inv s) (hr : s.inReset = false) :
    Inv (clearStickyError s) where
  frameSigned := hs.frameSigned
  pendWellFormed := hs.pendWellFormed
  errorConsistent := hs.errorConsistent
  inResetAtReset h := by simp [hr] at h

theorem Inv.busWrite {s : State} (hs : Inv s) (slot : Slot) (v : Word) (hr : s.inReset = false) :
    Inv (busWrite slot v s) := by
  obtain ⟨-, h⟩ | ⟨-, -, h⟩ | ⟨-, -, h⟩ := busWrite_cases slot v s <;> rw [h]
  · exact hs.issue v hr
  · exact hs.clearStickyError hr
  · exact hs

/-- Completing a pending command whose operands are in range leaves a signed frame, or the frame as it
was. -/
theorem Inv.exec {s t : State} {i : Instr} (hs : Inv s) (hp : s.pend = some i)
    (h : exec i s = .next t) : Inv t := by
  have hr := hs.inReset_eq_false hp
  obtain ⟨p, hpay, he⟩ | ⟨-, a, he⟩ := exec_cases i s
  · obtain rfl : completeFrame p s = t := by simpa [he] using h
    refine ⟨fun f hf => ?_, by simp, hs.errorConsistent, by simp [hr]⟩
    obtain rfl : sign p = f := by simpa using hf
    exact ⟨i, p, hs.pendWellFormed i hp, hpay, rfl⟩
  · obtain rfl : completeCrc a s = t := by simpa [he] using h
    exact ⟨hs.frameSigned, by simp, hs.errorConsistent, by simp [hr]⟩

theorem blockUnchanged_popTurn (s : State) : BlockUnchanged s (popTurn s) :=
  ⟨rfl, rfl, rfl, rfl, rfl, rfl, rfl⟩

theorem blockUnchanged_hostAdvance (s : State) : BlockUnchanged s (hostAdvance s) :=
  ⟨rfl, rfl, rfl, rfl, rfl, rfl, rfl⟩

theorem Inv.popTurn {s : State} (hs : Inv s) : Inv (popTurn s) :=
  hs.of_blockUnchanged (blockUnchanged_popTurn s) id

theorem Inv.hostAdvance {s : State} (hs : Inv s) : Inv (hostAdvance s) :=
  hs.of_blockUnchanged (blockUnchanged_hostAdvance s) id

end Sys2Proof.Machine

namespace Sys2Proof
open Machine

/-- Settles O47: each of the four ways a step can treat the block keeps the invariant. -/
theorem everyStepKeepsTheInvariant : Obligations.EveryStepKeepsTheInvariant := by
  intro s t hs h
  cases blockStep_of_step h with
  | reset _ atReset => exact inv_of_blockAtReset atReset
  | write slot v writes eq =>
    rw [eq]
    exact (hs.popTurn.busWrite slot v writes.inReset_eq).hostAdvance
  | completion i _ pend eq => exact hs.popTurn.exec pend eq
  | quiet _ unchanged held => exact hs.of_blockUnchanged unchanged held

/-- Settles O46: the reset state is at its reset values, which meet the invariant. -/
theorem resetStateMeetsTheInvariant : Obligations.ResetStateMeetsTheInvariant := by
  have h : BlockAtReset State.reset := ⟨rfl, rfl, rfl, rfl, rfl, rfl, rfl⟩
  exact ⟨h, reset_busy, reset_fvalid, inv_of_blockAtReset h⟩

end Sys2Proof
end

section
/-! PROOFS. Every step is a row of the write matrix (10_state.md R39), and what follows for the single
pieces of the block: the frame buffer, the accumulator, the error flags and the pending command. -/

namespace Sys2Proof.Machine

/-! What completion and the slot writes do, field by field. -/

theorem exec_of_framePayload {i : Instr} {p : Payload} (s : State) (h : framePayload i = some p) :
    exec i s = .next (completeFrame p s) := by
  obtain ⟨q, hq, he⟩ | ⟨hn, -⟩ := exec_cases i s
  · obtain rfl : p = q := Option.some.inj (h.symm.trans hq)
    exact he
  · simp [h] at hn

/-- `exec_cases` read backwards from the next state, the two CRC commands apart. -/
theorem exec_next_cases {i : Instr} {s t : State} (h : exec i s = .next t) :
    (∃ p, framePayload i = some p ∧ t = completeFrame p s) ∨
    (i = .crcInit ∧ t = completeCrc (0xFF, 0xFF) s) ∨
    (∃ d, i = .crcUpd d ∧ t = completeCrc (crcStep s.acc d) s) := by
  cases i
  case crcInit => exact .inr (.inl ⟨rfl, (Host.Outcome.next.inj h).symm⟩)
  case crcUpd d => exact .inr (.inr ⟨d, rfl, (Host.Outcome.next.inj h).symm⟩)
  all_goals exact .inl ⟨_, rfl, (Host.Outcome.next.inj h).symm⟩

/-- Completion empties PEND and touches neither the error state nor anything outside the block. -/
theorem exec_frame {i : Instr} {s t : State} (h : exec i s = .next t) :
    t.pend = none ∧ t.err = s.err ∧ t.ecode = s.ecode ∧ t.serr = s.serr ∧ t.inReset = s.inReset ∧
    t.turns = s.turns ∧ t.host = s.host := by
  obtain ⟨p, -, rfl⟩ | ⟨-, rfl⟩ | ⟨d, -, rfl⟩ := exec_next_cases h <;> simp

/-- Completion writes the frame buffer for a frame command only. -/
theorem exec_frameBuffer {i : Instr} {s t : State} (h : exec i s = .next t) :
    (∃ p, framePayload i = some p ∧ t.frame = some (sign p)) ∨
    (framePayload i = none ∧ t.frame = s.frame) := by
  obtain ⟨p, hp, rfl⟩ | ⟨rfl, rfl⟩ | ⟨d, rfl, rfl⟩ := exec_next_cases h
  · exact .inl ⟨p, hp, rfl⟩
  · exact .inr ⟨rfl, rfl⟩
  · exact .inr ⟨rfl, rfl⟩

/-- No write of the host reaches the accumulator or the frame buffer (R39). -/
theorem busWrite_data (slot : Slot) (v : Word) (s : State) :
    (busWrite slot v s).crcHi = s.crcHi ∧ (busWrite slot v s).crcLo = s.crcLo ∧
    (busWrite slot v s).frame = s.frame := by
  obtain ⟨-, h⟩ | ⟨-, -, h⟩ | ⟨-, -, h⟩ := busWrite_cases slot v s <;> rw [h]
  · obtain ⟨hhi, hlo, hf, -⟩ := issue_frame v s
    exact ⟨hhi, hlo, hf⟩
  · simp
  · simp

/-- ERR and ECODE are written by CMD writes only. -/
theorem busWrite_error {slot : Slot} (v : Word) (s : State) (hc : slot ≠ .cmd) :
    (busWrite slot v s).err = s.err ∧ (busWrite slot v s).ecode = s.ecode := by
  obtain ⟨hs, -⟩ | ⟨-, -, h⟩ | ⟨-, -, h⟩ := busWrite_cases slot v s
  · exact absurd hs hc
  · simp [h]
  · simp [h]

/-- While a command is pending a CMD write is refused, so no write replaces it (R64, R171). -/
theorem busWrite_pend_of_busy (slot : Slot) (v : Word) {s : State} (hb : s.busy = true) :
    (busWrite slot v s).pend = s.pend := by
  obtain ⟨-, h⟩ | ⟨-, -, h⟩ | ⟨-, -, h⟩ := busWrite_cases slot v s <;> rw [h]
  · simp [issue, hb]
  · simp

/-- A CMD write never clears SERR. -/
theorem issue_serr_of_serr (w : Word) {s : State} (hs : s.serr = true) : (issue w s).serr = true := by
  obtain ⟨-, h⟩ | ⟨-, -, h⟩ | ⟨-, -, h⟩ | ⟨-, i, -, -, h⟩ := issue_cases w s <;> simp [h, hs]

/-- A step that is neither a reset nor a completion leaves the accumulator and the frame buffer. -/
theorem step_data_cases {s t : State} (h : step s = .next t) :
    (HostResets s ∧ BlockAtReset t) ∨
    (nextAgent s = .core ∧ ∃ i, s.pend = some i ∧ exec i (popTurn s) = .next t) ∨
    (t.crcHi = s.crcHi ∧ t.crcLo = s.crcLo ∧ t.frame = s.frame) := by
  cases blockStep_of_step h with
  | reset resets atReset => exact .inl ⟨resets, atReset⟩
  | write slot v _ eq =>
    rw [eq]
    exact .inr (.inr (busWrite_data slot v (popTurn s)))
  | completion i core pend eq => exact .inr (.inl ⟨core, i, pend, eq⟩)
  | quiet _ unchanged _ =>
    obtain ⟨hhi, hlo, hf, -⟩ := unchanged
    exact .inr (.inr ⟨hhi, hlo, hf⟩)

/-- A write to a slot that ignores it is a step in which none of the events of R39 happens. -/
theorem HostWrites.ignored {s : State} {slot : Slot} {v : Word} (h : HostWrites s slot v)
    (hc : slot ≠ .cmd) (hv : slot = .status → v[3] = false) :
    (∀ w, ¬ HostWrites s .cmd w) ∧ (∀ u, HostWrites s .status u → u[3] = false) ∧
    (nextAgent s = .core → s.pend = none) ∧ ¬ HostResets s := by
  refine ⟨fun w hw => hc (h.unique hw).1, fun u hu => ?_, fun ha => ?_, h.not_hostResets⟩
  · obtain ⟨hs, rfl⟩ := h.unique hu
    exact hv hs
  · simp [h.nextAgent_eq] at ha

theorem not_hostResets_iff (s : State) : ¬ HostResets s ↔
    (nextAgent s = .host → s.hostNext ≠ some .reset ∧ s.hostNext ≠ some .assertReset) := by
  simp [HostResets]

end Sys2Proof.Machine

namespace Sys2Proof
open Machine

/-- Settles O49: each of the four ways a step can treat the block is a row, a write by its slot and by
what acceptance does, a completion by its command. -/
theorem everyStepIsARowOfTheWriteMatrix : Obligations.EveryStepIsARowOfTheWriteMatrix := by
  intro s t h
  cases blockStep_of_step h with
  | reset resets atReset => exact .inl ⟨resets.1, resets.2, atReset⟩
  | write slot v writes eq =>
    subst eq
    obtain ⟨rfl, hw⟩ | ⟨rfl, hv, hw⟩ | ⟨hc, hv, hw⟩ := busWrite_cases slot v (popTurn s) <;> rw [hw]
    · obtain ⟨hb, hi⟩ | ⟨hb, hd, hi⟩ | ⟨hb, hd, hi⟩ | ⟨hb, i, hd, hwf, hi⟩ := issue_cases v (popTurn s) <;>
        rw [hi]
      · exact .inr (.inr (.inl ⟨v, writes, .inl ⟨hb, rfl⟩, rfl, rfl, rfl, rfl, rfl, rfl⟩))
      · exact .inr (.inr (.inl ⟨v, writes, .inr (.inl ⟨hb, hd, rfl⟩), rfl, rfl, rfl, rfl, rfl, rfl⟩))
      · exact .inr (.inr (.inl ⟨v, writes, .inr (.inr ⟨hb, hd, rfl⟩), rfl, rfl, rfl, rfl, rfl, rfl⟩))
      · exact .inr (.inl ⟨v, i, writes, hb, hd, hwf, rfl, rfl, rfl, rfl, rfl, rfl, rfl⟩)
    · exact .inr (.inr (.inr (.inr (.inr (.inr (.inl
        ⟨v, writes, hv, rfl, rfl, rfl, rfl, rfl, rfl, rfl⟩))))))
    · obtain ⟨hcmd, hstatus, hcore, hreset⟩ := writes.ignored hc hv
      exact .inr (.inr (.inr (.inr (.inr (.inr (.inr
        ⟨⟨rfl, rfl, rfl, rfl, rfl, rfl, rfl⟩, hcmd, hstatus, hcore,
          (not_hostResets_iff s).1 hreset⟩))))))
  | completion i core pend eq =>
    obtain ⟨p, hp, rfl⟩ | ⟨rfl, rfl⟩ | ⟨d, rfl, rfl⟩ := exec_next_cases eq
    · exact .inr (.inr (.inr (.inr (.inr (.inl
        ⟨i, p, core, pend, hp, rfl, rfl, by simp, rfl, rfl, rfl, rfl⟩)))))
    · exact .inr (.inr (.inr (.inl ⟨core, pend, rfl, rfl, rfl, rfl, rfl, rfl, rfl⟩)))
    · exact .inr (.inr (.inr (.inr (.inl ⟨d, core, pend, rfl, rfl, rfl, rfl, rfl, rfl⟩))))
  | quiet quiet unchanged _ =>
    exact .inr (.inr (.inr (.inr (.inr (.inr (.inr
      ⟨unchanged, quiet.noWrite .cmd, fun v hv => absurd hv (quiet.noWrite .status v),
        quiet.noCompletion, (not_hostResets_iff s).1 quiet.noReset⟩))))))

/-- Settles O19: the frame is that of `exec_frame`, and a CRC command has no payload. -/
theorem completionFrame : Obligations.CompletionFrame := by
  intro i s t h
  obtain ⟨hp, he, hc, hs, hr, ht, hh⟩ := exec_frame h
  refine ⟨hp, he, hc, hs, hr, ht, hh, fun hcrc => ?_⟩
  obtain ⟨p, hpay, -⟩ | ⟨-, hf⟩ := exec_frameBuffer h
  · obtain rfl | ⟨d, rfl⟩ := hcrc <;> cases hpay
  · exact hf

/-- Settles O50: of the three ways to write the frame buffer only reset empties it, and only a frame
command fills it. -/
theorem onlyResetClearsFvalid : Obligations.OnlyResetClearsFvalid := by
  refine ⟨fun i p s hp => ⟨_, exec_of_framePayload s hp, rfl⟩, fun s t h hs ht => ?_,
    fun s t h hs ht => ?_, fun w s => ?_⟩
  · obtain ⟨hr, -⟩ | ⟨-, i, -, he⟩ | ⟨-, -, hf⟩ := step_data_cases h
    · exact hr
    · obtain ⟨p, -, hf⟩ | ⟨-, hf⟩ := exec_frameBuffer he <;> simp_all [State.fvalid]
    · simp_all [State.fvalid]
  · obtain ⟨-, -, -, hn, -⟩ | ⟨hc, i, hi, he⟩ | ⟨-, -, hf⟩ := step_data_cases h
    · simp [State.fvalid, hn] at ht
    · obtain ⟨p, hp, -⟩ | ⟨-, hf⟩ := exec_frameBuffer he
      · exact ⟨hc, i, p, hi, hp⟩
      · simp_all [State.fvalid]
    · simp_all [State.fvalid]
  · obtain ⟨-, -, hf, -⟩ := issue_frame w s
    simp [State.fvalid, hf]

/-- Settles O53: a write while BUSY = 1 is refused, and completion and reset empty PEND. -/
theorem pendingCommandIsNeverReplaced : Obligations.PendingCommandIsNeverReplaced := by
  intro s t i hi h
  cases blockStep_of_step h with
  | reset resets atReset =>
    obtain ⟨-, -, -, hp, -⟩ := atReset
    exact .inr (.inr ⟨hp, resets⟩)
  | write slot v _ eq =>
    have hb : (popTurn s).busy = true := by simp [State.busy, hi]
    rw [eq]
    exact .inl ((busWrite_pend_of_busy slot v hb).trans hi)
  | completion j core pend eq =>
    obtain rfl : i = j := Option.some.inj (hi.symm.trans pend)
    obtain ⟨hp, -⟩ := exec_frame eq
    exact .inr (.inl ⟨hp, core, eq⟩)
  | quiet _ unchanged _ =>
    obtain ⟨-, -, -, hp, -⟩ := unchanged
    exact .inl (hp.trans hi)

/-- Settles O52: a CMD write reports by the four cases of acceptance; of the other steps only a reset
touches ERR and ECODE, and only a reset or a STATUS write clears SERR. -/
theorem errorFlagsFollowCommandWrites : Obligations.ErrorFlagsFollowCommandWrites := by
  refine ⟨fun s w hw => ⟨_, step_of_write hw, ?_⟩, fun s t h hne => ?_, fun s t h hs ht => ?_⟩
  · obtain ⟨hb, h⟩ | ⟨hb, ⟨e, hd⟩, h⟩ | ⟨hb, ⟨i, hd, hwf⟩, h⟩ | ⟨hb, i, hd, hwf, h⟩ :=
      issue_cases w (popTurn s) <;> rw [popTurn_busy] at hb
    · simp [hostAdvance, busWrite, h, hb, errorCode]
    · simp [hostAdvance, busWrite, h, hb, hd, errorCode]
    · simp [hostAdvance, busWrite, h, hb, hd, hwf, errorCode]
    · simp [hostAdvance, busWrite, h, hb, hd, hwf]
  · cases blockStep_of_step h with
    | reset resets _ => exact .inr resets
    | write slot v writes eq =>
      by_cases hc : slot = .cmd
      · exact .inl ⟨v, hc ▸ writes⟩
      · obtain ⟨he, hk⟩ := busWrite_error v (popTurn s) hc
        simp [eq, hostAdvance, he, hk] at hne
    | completion i _ _ eq =>
      obtain ⟨-, he, hk, -⟩ := exec_frame eq
      simp [he, hk] at hne
    | quiet _ unchanged _ =>
      obtain ⟨-, -, -, -, he, hk, -⟩ := unchanged
      simp [he, hk] at hne
  · cases blockStep_of_step h with
    | reset resets _ => exact .inr resets
    | write slot v writes eq =>
      obtain ⟨-, hw⟩ | ⟨rfl, hv, -⟩ | ⟨-, -, hw⟩ := busWrite_cases slot v (popTurn s)
      · simp [eq, hostAdvance, hw, issue_serr_of_serr v (s := popTurn s) hs] at ht
      · exact .inl ⟨v, writes, hv⟩
      · simp [eq, hostAdvance, hw, hs] at ht
    | completion i _ _ eq =>
      obtain ⟨-, -, -, hse, -⟩ := exec_frame eq
      simp [hse, hs] at ht
    | quiet _ unchanged _ =>
      obtain ⟨-, -, -, -, -, -, hse⟩ := unchanged
      simp [hse, hs] at ht

end Sys2Proof
end

section
/-! PROOFS. Decoding undoes the encoding (30_encoding.md R77, R78). -/

namespace Sys2Proof

theorem decode_encode (i : Instr) : decode (encode i) = .ok i := by
  cases i with
  | relayOn idx | relayOff idx | relayFlip idx =>
    simp [decode, encode, whenZero, rsvField_append, opField_append, idxField_append, lowHalf_append]
  | flashOn idx dur | flashOff idx dur =>
    simp [decode, encode, rsvField_append, opField_append, idxField_append, durField_append]
  | stateQuery => rfl
  | crcInit => rfl
  | crcUpd data =>
    simp [decode, encode, whenZero, rsvField_append_data, opField_append_data, zeroField_append,
      dataField_append]

end Sys2Proof
end

section
/-! PROOFS. The table-driven CRC is the bitwise one (40_crc_engine.md R103, R106), and what the payload
of a signed frame is. -/

namespace Sys2Proof.Machine

/-- A byte put below a value, by shift and OR (R16). -/
theorem append_byte_eq_or {n : Nat} (x : BitVec n) (y : Byte) :
    x ++ y = x.setWidth (n + 8) <<< 8 ||| y.setWidth (n + 8) := by
  rw [BitVec.append_def, BitVec.shiftLeftZeroExtend_eq, BitVec.setWidth'_eq]

/-! Eight bit steps are linear over exclusive OR, so they split into the step of the low byte, which is
the generator, and that of the high byte, which only moves it down. -/

theorem crcBitStep_xor (a b : Half) : crcBitStep (a ^^^ b) = crcBitStep a ^^^ crcBitStep b := by
  cases ha : a[0] <;> cases hb : b[0] <;>
    simp [crcBitStep, ha, hb, BitVec.ushiftRight_xor_distrib, BitVec.xor_assoc]
  ac_rfl

theorem crcEightBits_xor (a b : Half) : crcEightBits (a ^^^ b) = crcEightBits a ^^^ crcEightBits b := by
  simp only [crcEightBits, crcBitStep_xor]

/-- A bit step of a value whose low bit is clear only moves it down. -/
theorem crcBitStep_shiftLeft (h : Byte) {k : Nat} (hk : k < 8) :
    crcBitStep (h.setWidth 16 <<< (k + 1)) = h.setWidth 16 <<< k := by
  have hlow : (h.setWidth 16 <<< (k + 1))[0] = false := by simp
  rw [crcBitStep, hlow, if_neg Bool.false_ne_true]
  ext i hi
  simp only [BitVec.getElem_ushiftRight, BitVec.getLsbD_shiftLeft, BitVec.getElem_shiftLeft,
    BitVec.getLsbD_setWidth]
  grind

theorem crcEightBits_highByte (h : Byte) : crcEightBits (cat16 h 0) = cat16 0 h := by
  have hhigh : cat16 h 0 = h.setWidth 16 <<< 8 := by
    rw [cat16, append_byte_eq_or]; simp
  have hlow : cat16 0 h = h.setWidth 16 := by
    rw [cat16, append_byte_eq_or]; simp
  rw [hhigh, hlow]
  simp [crcEightBits, crcBitStep_shiftLeft]

theorem cat16_xor_cat16 (a b c d : Byte) :
    cat16 a b ^^^ cat16 c d = cat16 (a ^^^ c) (b ^^^ d) :=
  BitVec.xor_append

/-- The two halves of the accumulator, and the byte folded into the low one. -/
theorem cat16_xor_setWidth (hi lo b : Byte) :
    cat16 hi lo ^^^ b.setWidth 16 = cat16 hi 0 ^^^ (lo ^^^ b).setWidth 16 := by
  have hb (x : Byte) : x.setWidth 16 = cat16 0 x := BitVec.setWidth_eq_append (by decide)
  simp [hb, cat16_xor_cat16]

/-- One table step on the 16-bit value is the eight bit steps of R106. -/
theorem cat16_crcStep (acc : Byte × Byte) (b : Byte) :
    cat16 (crcStep acc b).1 (crcStep acc b).2 = crcEightBits (cat16 acc.1 acc.2 ^^^ b.setWidth 16) := by
  obtain ⟨hi, lo⟩ := acc
  have htable : crcStep (hi, lo) b = (hi8 (crcT (lo ^^^ b)), hi ^^^ lo8 (crcT (lo ^^^ b))) := by
    simp [crcStep, crcStepWith, crcTableHigh_eq_lo8_crcT, crcTableLow_eq_hi8_crcT]
  calc cat16 (crcStep (hi, lo) b).1 (crcStep (hi, lo) b).2
      = cat16 0 hi ^^^ cat16 (hi8 (crcT (lo ^^^ b))) (lo8 (crcT (lo ^^^ b))) := by
        rw [htable, cat16_xor_cat16]; simp
    _ = crcEightBits (cat16 hi 0) ^^^ crcT (lo ^^^ b) := by
        rw [cat16_hi8_lo8, crcEightBits_highByte]
    _ = crcEightBits (cat16 hi lo ^^^ b.setWidth 16) := by
        rw [cat16_xor_setWidth, crcEightBits_xor, crcT]

theorem cat16_foldl_crcStep (d : List Byte) (acc : Byte × Byte) :
    cat16 (d.foldl crcStep acc).1 (d.foldl crcStep acc).2 =
      d.foldl (fun c b => crcEightBits (c ^^^ b.setWidth 16)) (cat16 acc.1 acc.2) := by
  induction d generalizing acc with
  | nil => rfl
  | cons b d ih => rw [List.foldl_cons, List.foldl_cons, ih, cat16_crcStep]

theorem computeCRC_eq_foldl (d : List Byte) :
    computeCRC d = cat16 (d.foldl crcStep (0xFF, 0xFF)).1 (d.foldl crcStep (0xFF, 0xFF)).2 := rfl

/-- The table-driven CRC is the bitwise one on every byte sequence (R106). -/
theorem computeCRC_eq_crcBitwise (d : List Byte) : computeCRC d = crcBitwise d := by
  rw [computeCRC_eq_foldl, cat16_foldl_crcStep]
  rfl

theorem payload_toList (p : Payload) : p.toList = [p[0], p[1], p[2], p[3], p[4], p[5]] := by
  refine List.ext_getElem (by simp) fun k hk _ => ?_
  have hk6 : k < 6 := by simpa using hk
  interval_cases k <;> rfl

theorem sign_toList_take (p : Payload) : (sign p).toList.take 6 = p.toList :=
  (payload_toList p).symm

end Sys2Proof.Machine

namespace Sys2Proof
open Machine

/-- Settles O21: the frame is the signed payload, and the table-driven CRC is the bitwise one. -/
theorem completedFrameCarriesStandardCrc : Obligations.CompletedFrameCarriesStandardCrc := by
  intro i p s hp
  refine ⟨_, sign p, exec_of_framePayload s hp, rfl, ?_, ?_⟩
  · rw [← computeCRC_eq_crcBitwise]
    exact (sign_low p).trans (by rw [payload_toList]; rfl)
  · rw [← computeCRC_eq_crcBitwise]
    exact (sign_high p).trans (by rw [payload_toList]; rfl)

/-- Settles O48: a frame the block holds is a signed payload. -/
theorem validFrameHoldsItsCrc : Obligations.ValidFrameHoldsItsCrc := by
  intro s hs hv
  obtain ⟨f, hf⟩ := Option.isSome_iff_exists.1 hv
  obtain ⟨i, p, -, -, rfl⟩ := hs.frameSigned f hf
  refine ⟨sign p, hf, ?_, ?_⟩ <;> rw [sign_toList_take]
  · exact sign_low p
  · exact sign_high p

end Sys2Proof
end

section
/-! PROOFS. The register window (10_state.md R31-R35, 20_memory.md R52): what every slot reads as, what
a write does, and which accesses are admitted; and on top of it a command word's way to its completion
and the frame's way to the transport. -/

namespace Sys2Proof.Machine

/-! The words of the window by their fields. -/

theorem crcWord_eq (s : State) : crcWord s = (cat16 s.crcHi s.crcLo).setWidth 32 := by
  have h : (cat16 s.crcHi s.crcLo).setWidth 32 = 0#16 ++ cat16 s.crcHi s.crcLo :=
    BitVec.setWidth_eq_append (by decide)
  rw [h, crcWord, cat16]
  exact BitVec.append_assoc

theorem busRead_crc {s : State} (hb : s.busy = false) :
    busRead .crc s = .ok ((cat16 s.crcHi s.crcLo).setWidth 32) := by
  simp [busRead, hb, crcWord_eq]

theorem busRead_crc_of_busy {s : State} (hb : s.busy = true) :
    busRead .crc s = .error (.readWhileBusy .crc) := by
  simp [busRead, hb]

theorem readFrame_of_some {s : State} {f : Frame} (slot : Slot) (hb : s.busy = false)
    (hf : s.frame = some f) : readFrame slot s = .ok f := by
  simp [readFrame, hb, hf]

/-- FRAME0 and FRAME1 are read only with BUSY = 0 and FVALID = 1 (R210, R211). -/
theorem readFrame_hazard {s : State} (slot : Slot) (h : s.busy = true ∨ s.fvalid = false) :
    ∃ r, readFrame slot s = .error r := by
  cases hb : s.busy
  case true => exact ⟨_, by simp [readFrame, hb]; rfl⟩
  case false =>
    have hf : s.frame = none := by simpa [hb, State.fvalid] using h
    exact ⟨_, by simp [readFrame, hb, hf]; rfl⟩

/-- A word put together from four bytes, the lowest last, as the sum of its shifted bytes. -/
theorem bytes_append_eq_or (a b c d : Byte) :
    (d ++ c ++ b ++ a : Word) =
      a.setWidth 32 ||| b.setWidth 32 <<< 8 ||| c.setWidth 32 <<< 16 ||| d.setWidth 32 <<< 24 := by
  rw [append_byte_eq_or, append_byte_eq_or, append_byte_eq_or]
  ext i hi
  simp only [BitVec.getElem_or, BitVec.getElem_shiftLeft, BitVec.getElem_setWidth,
    BitVec.getLsbD_or, BitVec.getLsbD_shiftLeft, BitVec.getLsbD_setWidth]
  grind

/-- The four bytes of such a word, taken out again. -/
theorem extractLsb'_bytes (a b c d : Byte) :
    (d ++ c ++ b ++ a : Word).extractLsb' 0 8 = a ∧ (d ++ c ++ b ++ a : Word).extractLsb' 8 8 = b ∧
    (d ++ c ++ b ++ a : Word).extractLsb' 16 8 = c ∧
    (d ++ c ++ b ++ a : Word).extractLsb' 24 8 = d := by
  have drop {n : Nat} (x : BitVec n) (y : Byte) (start : Nat) :
      (x ++ y).extractLsb' (start + 8) 8 = x.extractLsb' start 8 :=
    BitVec.extractLsb'_append_eq_of_le (by omega)
  refine ⟨BitVec.extractLsb'_append_eq_right, (drop _ _ 0).trans BitVec.extractLsb'_append_eq_right,
    ?_, ?_⟩
  · exact (drop _ _ 8).trans ((drop _ _ 0).trans BitVec.extractLsb'_append_eq_right)
  · exact (drop _ _ 16).trans ((drop _ _ 8).trans BitVec.extractLsb'_append_eq_left)

/-- Byte `k` of a frame stands at its place of R34 in the two frame words. -/
theorem byteOfWords_frameWords (f : Frame) (k : Fin 8) :
    byteOfWords (frameWord0 f) (frameWord1 f) k = some f[k] := by
  obtain ⟨h0, h1, h2, h3⟩ := extractLsb'_bytes f[0] f[1] f[2] f[3]
  obtain ⟨h4, h5, h6, h7⟩ := extractLsb'_bytes f[4] f[5] f[6] f[7]
  fin_cases k
  exacts [congrArg some h0, congrArg some h1, congrArg some h2, congrArg some h3,
    congrArg some h4, congrArg some h5, congrArg some h6, congrArg some h7]

/-- What SEND hands over of a byte held in a host variable is the byte. -/
theorem lowByte_setWidth (b : Byte) : (b.setWidth 32).extractLsb' 0 8 = b := by
  rw [← BitVec.setWidth_eq_extractLsb' (by decide)]
  simp

/-- `byteOfWords` by the division of R34. -/
theorem byteOfWords_eq (w0 w1 : Word) (k : Fin 8) : byteOfWords w0 w1 k =
    some ((if k.val / 4 = 0 then w0 else w1).extractLsb' (8 * (k.val % 4)) 8) := by
  fin_cases k <;> rfl

theorem crcWord_fields (s : State) : (crcWord s).extractLsb' 8 8 = s.crcHi ∧
    (crcWord s).extractLsb' 0 8 = s.crcLo ∧ (crcWord s).extractLsb' 16 16 = 0 :=
  ⟨(BitVec.extractLsb'_append_eq_of_le (by decide)).trans BitVec.extractLsb'_append_eq_right,
    BitVec.extractLsb'_append_eq_right,
    (BitVec.extractLsb'_append_eq_of_le (by decide)).trans BitVec.extractLsb'_append_eq_left⟩

theorem getElem_flags {n : Nat} (x : BitVec n) (serr err fvalid busy : Bool) :
    let w := x ++ BitVec.ofBool serr ++ BitVec.ofBool err ++ BitVec.ofBool fvalid ++ BitVec.ofBool busy
    w[0] = busy ∧ w[1] = fvalid ∧ w[2] = err ∧ w[3] = serr := by
  simp [BitVec.getElem_append]

theorem extractLsb'_flags {n : Nat} (x : BitVec n) (a b c d : BitVec 1) (start len : Nat) :
    (x ++ a ++ b ++ c ++ d).extractLsb' (start + 4) len = x.extractLsb' start len := by
  simp [BitVec.extractLsb'_append_eq_of_le]

theorem statusWord_flags (s : State) : (statusWord s)[0] = s.busy ∧ (statusWord s)[1] = s.fvalid ∧
    (statusWord s)[2] = s.err ∧ (statusWord s)[3] = s.serr :=
  getElem_flags _ _ _ _ _

theorem statusWord_ecode (s : State) : (statusWord s).extractLsb' 4 3 = s.ecode :=
  (extractLsb'_flags (0#25 ++ s.ecode) _ _ _ _ 0 3).trans BitVec.extractLsb'_append_eq_right

theorem statusWord_reserved (s : State) : (statusWord s).extractLsb' 7 25 = 0 :=
  (extractLsb'_flags (0#25 ++ s.ecode) _ _ _ _ 3 25).trans BitVec.extractLsb'_append_eq_left

/-- A frame read that has a value shows the frame buffer. -/
theorem eq_of_map_readFrame {slot : Slot} {s : State} {f : Frame} {word : Frame → Word} {w : Word}
    (hf : s.frame = some f) (h : (readFrame slot s).map word = .ok w) : word f = w := by
  cases hb : s.busy with
  | true => simp [readFrame, hb, Except.map] at h
  | false => simpa [readFrame, hb, hf, Except.map] using h

theorem slotAt_isSome_iff (off : Nat) : (∃ slot, slotAt off = some slot) ↔ off % 4 = 0 ∧ off ≤ 0x1C := by
  constructor
  · rintro ⟨slot, h⟩
    unfold slotAt at h
    split at h <;> simp at h ⊢
  · rintro ⟨h4, hle⟩
    obtain ⟨k, rfl⟩ : ∃ k, off = 4 * k := ⟨off / 4, by omega⟩
    have hk : k < 8 := by omega
    interval_cases k <;> exact ⟨_, rfl⟩

theorem admitted_isSome_iff (bytes addr : Nat) : (∃ slot, admitted bytes addr = some slot) ↔
    bytes = 4 ∧ ∃ off, addr = Config.base + off ∧ off % 4 = 0 ∧ off ≤ 0x1C := by
  constructor
  · rintro ⟨slot, h⟩
    unfold admitted at h
    split at h
    case isTrue hb =>
      exact ⟨hb.1, addr - Config.base, by omega, (slotAt_isSome_iff _).1 ⟨slot, h⟩⟩
    case isFalse => cases h
  · rintro ⟨rfl, off, rfl, hoff⟩
    simpa using (slotAt_isSome_iff off).2 hoff

/-! From a command word to its completion. -/

theorem coreTurn_of_pend {s : State} {i : Instr} (h : s.pend = some i) : coreTurn s = exec i s := by
  simp [coreTurn, h]

/-- A well-formed instruction's word, issued while BUSY = 0, runs the instruction at once. -/
theorem issueAndComplete_cons {i : Instr} {s t : State} (ws : List Word) (hw : i.wellFormed = true)
    (hb : s.busy = false) (he : exec i (accept i s) = .next t) :
    issueAndComplete (encode i :: ws) s = issueAndComplete ws t := by
  simp [issueAndComplete, issue_of_wellFormed hb (decode_encode i) hw, coreTurn_of_pend, he]

/-- An accumulator that has taken in the bytes from its start value holds their CRC. -/
theorem computeCRC_eq_acc {bs : List Byte} {s : State} (h : s.acc = bs.foldl crcStep (0xFF, 0xFF)) :
    computeCRC bs = cat16 s.crcHi s.crcLo := by
  rw [computeCRC_eq_foldl, ← h]
  rfl

/-- The words of CRC.UPD in order take the accumulator through `crcStep` of each byte (R111, R112). -/
theorem issueAndComplete_crcUpd (bs : List Byte) {s : State} (hb : s.busy = false) :
    ∃ t, issueAndComplete (bs.map fun b => encode (.crcUpd b)) s = .next t ∧ t.busy = false ∧
      t.acc = bs.foldl crcStep s.acc := by
  induction bs generalizing s with
  | nil => exact ⟨s, rfl, hb, rfl⟩
  | cons b bs ih =>
    rw [List.map_cons, issueAndComplete_cons (i := .crcUpd b) _ rfl hb rfl]
    exact ih rfl

theorem base_mod_four : Config.base % 4 = 0 := by
  simp only [Config.base]; omega

end Sys2Proof.Machine

namespace Sys2Proof
open Machine

/-- Settles O26: the flags and fields of the STATUS word, and the error clause of the invariant. -/
theorem statusReadShowsEveryFlag : Obligations.StatusReadShowsEveryFlag := by
  intro s
  obtain ⟨hbusy, hfvalid, herr, hserr⟩ := statusWord_flags s
  refine ⟨statusWord s, rfl, hbusy, hfvalid, herr, hserr, statusWord_ecode s, statusWord_reserved s,
    fun hs he => ?_⟩
  obtain ⟨hzero, -⟩ := hs.errorConsistent
  exact (statusWord_ecode s).trans (hzero (herr.symm.trans he))

/-- Settles O27: both accesses have their step, and `writeStatus` looks at bit 3 only. -/
theorem statusWriteClearsOnlySerr : Obligations.StatusWriteClearsOnlySerr := by
  refine ⟨fun s v hw => ?_, fun s x hr => ⟨_, step_of_read hr, rfl, rfl, rfl, rfl, rfl, rfl, rfl⟩⟩
  rw [step_of_write hw]
  cases h : v[3] <;> simp [busWrite, writeStatus, h] <;> rfl

/-- Settles O28: the fields of the CRC word. -/
theorem crcReadReturnsTheAccumulator : Obligations.CrcReadReturnsTheAccumulator := by
  refine ⟨fun s hb => ?_, fun s v => rfl, fun s => busRead_crc_of_busy⟩
  obtain ⟨hhi, hlo, hzero⟩ := crcWord_fields s
  exact ⟨crcWord s, by simp [busRead, hb], crcWord_eq s, hhi, hlo, hzero⟩

/-- Settles O29: the frame words packed and taken apart again, and the two hazards. -/
theorem frameReadsPackTheFrame : Obligations.FrameReadsPackTheFrame := by
  refine ⟨fun s f hb hf => ?_, fun s v => ⟨rfl, rfl⟩, fun s h => ?_⟩
  · refine ⟨frameWord0 f, frameWord1 f, ?_, ?_, bytes_append_eq_or _ _ _ _, bytes_append_eq_or _ _ _ _,
      fun k => ?_⟩
    · simp [busRead, readFrame_of_some _ hb hf, Except.map]
    · simp [busRead, readFrame_of_some _ hb hf, Except.map]
    · exact Option.some.inj ((byteOfWords_eq _ _ k).symm.trans (byteOfWords_frameWords f k))
  · obtain ⟨r0, h0⟩ := readFrame_hazard .frame0 h
    obtain ⟨r1, h1⟩ := readFrame_hazard .frame1 h
    exact ⟨⟨r0, by simp [busRead, h0, Except.map]⟩, ⟨r1, by simp [busRead, h1, Except.map]⟩⟩

/-- Settles O31: each is the slot's own arm of the window. -/
theorem reservedSlotsReadZero : Obligations.ReservedSlotsReadZero :=
  fun _ _ => ⟨rfl, rfl, rfl, rfl, rfl, rfl, rfl, rfl, rfl, rfl⟩

/-- Settles O32: the window's eight offsets, and the host's two accesses outside them. -/
theorem onlyWindowAccessesAreAdmitted : Obligations.OnlyWindowAccessesAreAdmitted := by
  refine ⟨admitted_isSome_iff, fun bytes addr h => ?_, ?_, fun s bytes addr e hr ha hn => ?_,
    fun s bytes addr x hr ha hn => ?_⟩
  · obtain ⟨-, off, rfl, h4, hle⟩ := (admitted_isSome_iff bytes addr).1 h
    have hbase := base_mod_four
    omega
  · simp only [admitted_base_add]
    exact ⟨rfl, rfl, rfl, rfl, rfl, rfl, rfl, rfl⟩
  · rw [step_of_host ha]
    simp [hostOp, hostStore, hr, hn]
  · rw [step_of_host ha]
    simp [hostOp, hostLoad, hr, hn]

/-- Settles O51: a step that is neither a reset nor a completion leaves the accumulator. -/
theorem onlyCommandsAndResetWriteTheAccumulator : Obligations.OnlyCommandsAndResetWriteTheAccumulator := by
  refine ⟨fun s t h hne => ?_, fun s => busRead_crc⟩
  obtain ⟨hr, -⟩ | ⟨hc, i, hi, -⟩ | ⟨hhi, hlo, -⟩ := step_data_cases h
  · exact .inl hr
  · exact .inr ⟨hc, i, hi⟩
  · simp [hhi, hlo] at hne

/-- Settles O37: the word decodes to its instruction, which acceptance latches. -/
theorem writtenCommandRunsAtCoreTurn : Obligations.WrittenCommandRunsAtCoreTurn := by
  intro s i rest hwf hb hw hturns
  have hissue : issue (encode i) (popTurn s) = accept i (popTurn s) :=
    issue_of_wellFormed hb (decode_encode i) hwf
  have hstep : step s = .next (hostAdvance (accept i (popTurn s))) := by
    rw [step_of_write hw, busWrite, hissue]
  have hcore : nextAgent (hostAdvance (accept i (popTurn s))) = .core := by
    simp [nextAgent, hostAdvance, hturns]
  refine ⟨_, hstep, rfl, rfl, rfl, rfl, rfl, rfl, rfl, ?_⟩
  rw [step_of_core hcore, coreTurn_of_pend (i := i) rfl]
  simp [popTurn, hostAdvance, hturns]

/-- Settles O58: each of the eight expressions takes its own byte out of the two words. -/
theorem hostSendsTheFrameBuffer : Obligations.HostSendsTheFrameBuffer := by
  intro s f x y w0 w1 hf h0 h1 hx hy ha
  obtain rfl : frameWord0 f = w0 := eq_of_map_readFrame hf h0
  obtain rfl : frameWord1 f = w1 := eq_of_map_readFrame hf h1
  have hsent : evalFrame s.host (Vector.ofFn fun k : Fin 8 =>
      .frameByte (.var x) (.var y) (.const (BitVec.ofNat 32 k))) = f := by
    refine Vector.ext fun k hk => ?_
    have hbyte := frameByteValue_of_byteOfWords (h := s.host) (byteOfWords_frameWords f ⟨k, hk⟩)
    have hmod : k % 4294967296 = k := by omega
    simpa [evalFrame, evalExpr, varValue_of_getVar hx, varValue_of_getVar hy, hmod, lowByte_setWidth]
      using hbyte
  refine ⟨_, step_of_host ha, ?_, rfl, rfl, rfl, rfl, rfl, rfl, rfl⟩
  simp [hostAdvance, hsent]

/-- Settles O13: CRC.INIT starts the fold of `crcStep`, and each CRC.UPD takes its next step. -/
theorem streamingEqualsTheFunction : Obligations.StreamingEqualsTheFunction := by
  intro bs s hb
  rw [issueAndComplete_cons (i := .crcInit) _ rfl hb rfl]
  obtain ⟨t, ht, htb, hacc⟩ :=
    issueAndComplete_crcUpd bs (s := completeCrc (0xFF, 0xFF) (accept .crcInit s)) rfl
  refine ⟨t, ht, ?_⟩
  rw [busRead_crc htb, computeCRC_eq_acc hacc]

end Sys2Proof
end

section
/-! PROOFS. Who steps and how a step ends (20_memory.md R60, R61, 70_reset_and_hazards.md R205, R206):
every outcome of a host operation, the host's wait, whose turn comes next, and a pending command's way
to its completion; and what the accesses that keep the host's duties (R161), reads and CMD writes
(R54) and a flash command's completion (R134) leave. -/

namespace Sys2Proof.Machine

/-! The outcomes of the host's operations. -/

theorem accessStuck_iff (bytes addr : Nat) (s : State) :
    accessStuck bytes addr s = true ↔ s.inReset = true ∨ admitted bytes addr = none := by
  simp [accessStuck]

theorem hostStuck_of_hostNext {s : State} {op : HostOp} (h : s.hostNext = some op) :
    s.hostStuck = opStuck op s := by
  simp [State.hostStuck, h]

/-- Every outcome of a host operation: a stuck operation faults, a hung receive by its name; of the
others only a load can fault, by a hazard read; the rest have a next state. -/
theorem hostOp_outcome (op : HostOp) (s : State) :
    (opStuck op s = true ∧ ∃ r, hostOp op s = .fault r ∧ (op = .receive → r = .hungReceive)) ∨
    (opStuck op s = false ∧ ∃ bytes addr x slot r, op = .load bytes addr x ∧
      admitted bytes addr = some slot ∧ busRead slot s = .error r ∧ hostOp op s = .fault r) ∨
    (opStuck op s = false ∧ ∃ t, hostOp op s = .next t) := by
  cases op with
  | store bytes addr e =>
    cases hr : s.inReset <;> cases ha : admitted bytes addr <;>
      simp [hostOp, hostStore, opStuck, accessStuck, hr, ha]
  | load bytes addr x =>
    cases hr : s.inReset <;> cases ha : admitted bytes addr
    case false.some slot =>
      cases hv : busRead slot s <;> simp [hostOp, hostLoad, opStuck, accessStuck, hr, ha, hv]
    all_goals simp [hostOp, hostLoad, opStuck, accessStuck, hr, ha]
  | wait =>
    cases hr : s.inReset <;> cases hb : (statusWord s)[0] <;>
      simp [hostOp, hostWait, opStuck, hr, hb]
  | receive =>
    rcases hq : s.host.replies with _ | ⟨_ | _, rest⟩ <;> simp [hostOp, hostReceive, opStuck, hq]
  | bne x e target =>
    by_cases hne : varValue s.host x = evalExpr s.host e <;> simp [hostOp, hostBranch, opStuck, hne]
  | assign _ _ | send _ | decodeReply | reset | assertReset | releaseReset =>
    exact .inr (.inr ⟨rfl, _, rfl⟩)

theorem opStuck_popTurn (op : HostOp) (s : State) : opStuck op (popTurn s) = opStuck op s := by
  cases op <;> rfl

theorem hostOp_of_opStuck {op : HostOp} {s : State} (h : opStuck op s = true) :
    ∃ r, hostOp op s = .fault r := by
  obtain ⟨-, r, hr, -⟩ | ⟨hn, -⟩ | ⟨hn, -⟩ := hostOp_outcome op s
  · exact ⟨r, hr⟩
  · simp [h] at hn
  · simp [h] at hn

theorem hostOp_ne_refused (op : HostOp) (s : State) (q : Refusal) : hostOp op s ≠ .refused q := by
  obtain ⟨-, r, h, -⟩ | ⟨-, -, -, -, -, r, -, -, -, h⟩ | ⟨-, t, h⟩ := hostOp_outcome op s <;> simp [h]

/-! The host's wait (R157). -/

theorem hostWait_of_busy {s : State} (hr : s.inReset = false) (hb : s.busy = true) :
    hostWait s = .next s := by
  obtain ⟨hbit, -⟩ := statusWord_flags s
  simp [hostWait, hr, hbit, hb]

theorem hostWait_of_not_busy {s : State} (hr : s.inReset = false) (hb : s.busy = false) :
    hostWait s = .next (hostAdvance s) := by
  obtain ⟨hbit, -⟩ := statusWord_flags s
  simp [hostWait, hr, hbit, hb]

/-! Whose turn comes next. -/

theorem busy_of_pend {s : State} {i : Instr} (h : s.pend = some i) : s.busy = true := by
  simp [State.busy, h]

theorem nextAgent_of_nil {s : State} (h : s.turns = []) :
    nextAgent s = if s.busy then .core else .host := by
  simp [nextAgent, h]

theorem nextAgent_of_core_turn {s : State} {rest : List Agent} (h : s.turns = .core :: rest) :
    nextAgent s = .core := by
  simp [nextAgent, h]

theorem nextAgent_of_host_turn {s : State} {rest : List Agent} (h : s.turns = .host :: rest)
    (hs : s.hostStuck = false) : nextAgent s = .host := by
  simp [nextAgent, h, hs]

/-- With a command pending the host steps only in a turn the schedule names it for. -/
theorem turns_of_host {s : State} (h : nextAgent s = .host) (hb : s.busy = true) :
    ∃ rest, s.turns = .host :: rest := by
  rcases ht : s.turns with _ | ⟨_ | _, rest⟩
  · simp [nextAgent_of_nil ht, hb] at h
  · exact ⟨rest, rfl⟩
  · simp [nextAgent_of_core_turn ht] at h

/-! The outcomes of a step. -/

/-- Completion never fails (R176). -/
theorem exec_answers (i : Instr) (s : State) : ∃ t, exec i s = .next t := by
  obtain ⟨p, -, h⟩ | ⟨-, a, h⟩ := exec_cases i s
  · exact ⟨_, h⟩
  · exact ⟨_, h⟩

theorem coreTurn_answers (s : State) : ∃ t, coreTurn s = .next t := by
  obtain ⟨-, h⟩ | ⟨i, -, h⟩ := coreTurn_cases s <;> rw [h]
  · exact ⟨s, rfl⟩
  · exact exec_answers i s

theorem step_of_core_of_pend {s : State} {i : Instr} (hp : s.pend = some i) (ha : nextAgent s = .core) :
    step s = exec i (popTurn s) :=
  (step_of_core ha).trans (coreTurn_of_pend hp)

/-- A step without a next state is the operation of the host that has none. -/
theorem step_stop_cases {s : State} (h : ∀ t, step s ≠ .next t) :
    nextAgent s = .host ∧ ∃ op, s.hostNext = some op ∧ step s = hostOp op (popTurn s) := by
  cases ha : nextAgent s with
  | core =>
    obtain ⟨t, ht⟩ := coreTurn_answers (popTurn s)
    exact absurd ((step_of_core ha).trans ht) (h t)
  | host =>
    cases ho : s.hostNext with
    | none => exact absurd (by simp [step, agentTurn, ha, hostTurn, ho]) (h (popTurn s))
    | some op => exact ⟨rfl, op, rfl, step_of_host ⟨ha, ho⟩⟩

theorem step_ne_refused (s : State) (q : Refusal) : step s ≠ .refused q := by
  intro h
  obtain ⟨-, op, -, hop⟩ := step_stop_cases (s := s) (by simp [h])
  exact hostOp_ne_refused op (popTurn s) q (hop.symm.trans h)

/-- While a command is pending the only fault is a hazard read of a busy block (R210): a stuck host
leaves its turn to the core. -/
theorem step_fault_of_busy {s : State} {r : Fault} (hb : s.busy = true) (h : step s = .fault r) :
    ∃ slot, r = .readWhileBusy slot := by
  obtain ⟨ha, op, ho, hop⟩ := step_stop_cases (s := s) (by simp [h])
  have hturn : hostTurn (popTurn s) = .fault r := by simp [hostTurn, ho, ← hop, h]
  obtain hs | ⟨slot, ⟨hr, -⟩ | ⟨-, hn, -⟩⟩ := hostTurn_fault hturn
  · have hn : s.hostStuck = false := hostStuck_of_host ha hb
    exact absurd (hn.symm.trans hs) (by decide)
  · exact ⟨slot, hr⟩
  · exact absurd (hb.symm.trans hn) (by decide)

/-! Every step uses up the turn at the head of the schedule. -/

theorem busWrite_turns (slot : Slot) (v : Word) (s : State) : (busWrite slot v s).turns = s.turns := by
  obtain ⟨-, h⟩ | ⟨-, -, h⟩ | ⟨-, -, h⟩ := busWrite_cases slot v s <;> rw [h]
  · obtain ⟨-, -, -, -, ht, -⟩ := issue_frame v s
    exact ht
  · rfl

theorem hostOp_turns {op : HostOp} {s t : State} (h : hostOp op s = .next t) : t.turns = s.turns := by
  obtain ⟨-, -, -, slot, v, -, -, -, -, rfl⟩ | ⟨-, rfl⟩ | ⟨-, rfl⟩ | ⟨-, rfl⟩ | ⟨-, hs, rfl⟩ :=
    hostOp_cases h
  · exact busWrite_turns slot v s
  all_goals rfl

theorem step_turns {s t : State} (h : step s = .next t) : t.turns = s.turns.tail := by
  obtain ⟨-, op, -, hop⟩ | ⟨-, -, rfl⟩ | ⟨-, hc⟩ := step_cases h
  · exact hostOp_turns hop
  · rfl
  · obtain ⟨-, he⟩ | ⟨i, -, he⟩ := coreTurn_cases (popTurn s) <;> rw [he] at hc
    · obtain rfl := Host.Outcome.next.inj hc
      rfl
    · obtain ⟨-, -, -, -, -, ht, -⟩ := exec_frame hc
      exact ht

/-! A pending command's way to its completion (R206). -/

/-- After `n` steps from `s` the pending `i` is about to be completed, or a reset to discard it, or the
next step is a hazard read of the busy block. -/
def PendingResolves (i : Instr) (n : Nat) (s : State) : Prop :=
  (∃ t, Sys2Proof.core.run n s = .next t ∧ t.pend = some i ∧
    step t = exec i { t with turns := t.turns.tail }) ∨
  (∃ t, Sys2Proof.core.run n s = .next t ∧ (HostAbout t .reset ∨ HostAbout t .assertReset)) ∨
  (∃ slot, Sys2Proof.core.run (n + 1) s = .fault (.readWhileBusy slot))

theorem pendingResolves_of_core {i : Instr} {s : State} (hp : s.pend = some i)
    (ha : nextAgent s = .core) : PendingResolves i 0 s :=
  .inl ⟨s, rfl, hp, step_of_core_of_pend hp ha⟩

theorem pendingResolves_of_hostResets {i : Instr} {s : State} (h : HostResets s) :
    PendingResolves i 0 s :=
  .inr (.inl ⟨s, rfl, h.2.imp (⟨h.1, ·⟩) (⟨h.1, ·⟩)⟩)

theorem pendingResolves_of_fault {i : Instr} {s : State} {slot : Slot}
    (h : step s = .fault (.readWhileBusy slot)) : PendingResolves i 0 s :=
  .inr (.inr ⟨slot, (core_run_one s).trans h⟩)

theorem PendingResolves.of_step {i : Instr} {n : Nat} {s t : State} (h : step s = .next t)
    (ht : PendingResolves i n t) : PendingResolves i (n + 1) s := by
  simpa only [PendingResolves, core_run_of_next _ h] using ht

/-- By induction on the schedule: a turn of the core completes the command, a turn of the host resets the
block, commits a hazard read, or leaves the command pending with one turn fewer. -/
theorem pendingResolves_within (turns : List Agent) {s : State} {i : Instr} (hturns : s.turns = turns)
    (hp : s.pend = some i) : ∃ n, n ≤ turns.length ∧ PendingResolves i n s := by
  induction turns generalizing s with
  | nil =>
    have ha : nextAgent s = .core := by simp [nextAgent_of_nil hturns, busy_of_pend hp]
    exact ⟨0, le_rfl, pendingResolves_of_core hp ha⟩
  | cons a rest ih =>
    cases hs : step s with
    | refused q => exact absurd hs (step_ne_refused s q)
    | fault r =>
      obtain ⟨slot, rfl⟩ := step_fault_of_busy (busy_of_pend hp) hs
      exact ⟨0, Nat.zero_le _, pendingResolves_of_fault hs⟩
    | next t =>
      obtain hpt | ⟨-, ha, -⟩ | ⟨-, hreset⟩ := pendingCommandIsNeverReplaced s t i hp hs
      · obtain ⟨n, hn, ht⟩ := ih (by rw [step_turns hs, hturns, List.tail_cons]) hpt
        exact ⟨n + 1, Nat.succ_le_succ hn, ht.of_step hs⟩
      · exact ⟨0, Nat.zero_le _, pendingResolves_of_core hp ha⟩
      · exact ⟨0, Nat.zero_le _, pendingResolves_of_hostResets hreset⟩

/-- A wait given `n` turns reads STATUS `n` times with nothing changed, and the core's turn then completes
the command. -/
theorem run_wait_turns (n : Nat) {s : State} {i : Instr} {rest : List Agent} (hp : s.pend = some i)
    (hr : s.inReset = false) (ho : s.hostNext = some .wait)
    (hturns : s.turns = List.replicate n .host ++ .core :: rest) :
    Sys2Proof.core.run (n + 1) s = exec i { s with turns := rest } := by
  induction n generalizing s with
  | zero =>
    rw [core_run_one, step_of_core_of_pend hp (nextAgent_of_core_turn hturns), popTurn, hturns]
    rfl
  | succ n ih =>
    rw [List.replicate_succ, List.cons_append] at hturns
    have ha : nextAgent s = .host :=
      nextAgent_of_host_turn hturns ((hostStuck_of_hostNext ho).trans hr)
    have hstep : step s = .next (popTurn s) :=
      (step_of_host ⟨ha, ho⟩).trans (hostWait_of_busy hr (busy_of_pend hp))
    rw [core_run_of_next _ hstep]
    exact ih hp hr ho (by rw [popTurn_turns, hturns, List.tail_cons])

/-! Accesses that keep the host's duties (R161), and what reads and writes leave (R54). -/

theorem busRead_ok_of_frame {slot : Slot} {s : State} (hs : slot = .frame0 ∨ slot = .frame1)
    (hb : s.busy = false) (hv : s.fvalid = true) : ∃ v, busRead slot s = .ok v := by
  obtain ⟨f, hf⟩ := Option.isSome_iff_exists.1 hv
  obtain rfl | rfl := hs
  · exact ⟨frameWord0 f, by simp [busRead, readFrame_of_some _ hb hf, Except.map]⟩
  · exact ⟨frameWord1 f, by simp [busRead, readFrame_of_some _ hb hf, Except.map]⟩

/-- A read that keeps the duties of R161 has a value. -/
theorem busRead_ok_of_duty {slot : Slot} {s : State} (hc : slot = .crc → s.busy = false)
    (hf : slot = .frame0 ∨ slot = .frame1 → s.busy = false ∧ s.fvalid = true) :
    ∃ v, busRead slot s = .ok v := by
  cases slot
  case crc => exact ⟨_, busRead_crc (hc rfl)⟩
  case frame0 | frame1 =>
    obtain ⟨hb, hv⟩ := hf (by decide)
    exact busRead_ok_of_frame (by decide) hb hv
  all_goals exact ⟨_, rfl⟩

/-- A host that keeps its duties is stuck only at a receive. -/
theorem HostDutyKept.op_eq_receive {s : State} {op : HostOp} (hd : HostDutyKept s)
    (ho : s.hostNext = some op) (hs : opStuck op s = true) : op = .receive := by
  cases op <;> simp only [HostDutyKept, ho] at hd
  case store bytes addr e =>
    obtain ⟨hr, slot, ha, -⟩ := hd
    simp [opStuck, accessStuck, hr, ha] at hs
  case load bytes addr x =>
    obtain ⟨hr, slot, ha, -⟩ := hd
    simp [opStuck, accessStuck, hr, ha] at hs
  case wait => exact absurd (hs.symm.trans hd) (by decide)
  case receive => rfl
  all_goals cases hs

/-- A host that keeps its duties reads no hazard. -/
theorem HostDutyKept.busRead_ok {s : State} {bytes addr x : Nat} {slot : Slot} (hd : HostDutyKept s)
    (ho : s.hostNext = some (.load bytes addr x)) (ha : admitted bytes addr = some slot) :
    ∃ v, busRead slot s = .ok v := by
  simp only [HostDutyKept, ho] at hd
  obtain ⟨-, slot', ha', hc, hf⟩ := hd
  obtain rfl : slot = slot' := Option.some.inj (ha.symm.trans ha')
  exact busRead_ok_of_duty hc hf

/-- A read of the block sees the block's state only. -/
theorem busRead_of_blockUnchanged {s t : State} (h : BlockUnchanged s t) (slot : Slot) :
    busRead slot t = busRead slot s := by
  obtain ⟨hhi, hlo, hf, hp, he, hc, hs⟩ := h
  have hbusy : t.busy = s.busy := congrArg Option.isSome hp
  have hfvalid : t.fvalid = s.fvalid := congrArg Option.isSome hf
  cases slot
  case status => simp [busRead, statusWord, hbusy, hfvalid, he, hc, hs]
  case crc => simp [busRead, crcWord, hbusy, hhi, hlo]
  case frame0 | frame1 => simp [busRead, readFrame, hbusy, hf]
  all_goals rfl

theorem blockUnchanged_hostAssign_popTurn (x : Nat) (v : Word) (s : State) :
    BlockUnchanged s (hostAssign x v (popTurn s)) :=
  ⟨rfl, rfl, rfl, rfl, rfl, rfl, rfl⟩

theorem issue_popTurn (w : Word) (s : State) : issue w (popTurn s) = popTurn (issue w s) := by
  unfold issue
  rw [popTurn_busy]
  split
  · rfl
  · split
    · rfl
    · split <;> rfl

/-- Completing a flash command, with the payload and its CRC written out (R121, R134). -/
theorem completeFrame_flashPayload (fa idx : Byte) (dur : Half) (s : State) :
    let crc := computeCRC [0x01, 0x05, fa, idx, hi8 dur, lo8 dur]
    completeFrame (flashPayload fa idx dur) s = { s with
      frame := some #v[0x01, 0x05, fa, idx, hi8 dur, lo8 dur, lo8 crc, hi8 crc],
      crcHi := hi8 crc, crcLo := lo8 crc, pend := none } := by
  simp [completeFrame, sign, flashPayload]

end Sys2Proof.Machine

namespace Sys2Proof
open Machine

/-- Settles O36: the core's turn with a command pending. -/
theorem stepRunsThePendingCommand : Obligations.StepRunsThePendingCommand :=
  fun _ _ => step_of_core_of_pend

/-- Settles O16: both flash commands complete with the flash payload of their own action. -/
theorem flashCommandsBuildTheirFrames : Obligations.FlashCommandsBuildTheirFrames :=
  fun idx dur s _ => ⟨congrArg Host.Outcome.next (completeFrame_flashPayload flashActionOn idx dur s),
    congrArg Host.Outcome.next (completeFrame_flashPayload flashActionOff idx dur s)⟩

/-- Settles O33: a read moves only the host, a write is `busWrite` of its slot, and a second CMD write
meets BUSY = 1. -/
theorem readsHaveNoSideEffects : Obligations.ReadsHaveNoSideEffects := by
  refine ⟨fun s t slot x hr h => ?_, fun s w hw => ⟨_, step_of_write hw, ?_⟩,
    fun s v hw hv => ⟨_, step_of_write hw, ?_⟩, fun s slot v hw hc hv => ⟨_, step_of_write hw, ?_⟩,
    fun s w i hb hd hwf => ?_⟩
  · rw [step_of_read hr] at h
    cases hv : busRead slot s with
    | error r => simp [hv] at h
    | ok v =>
      obtain rfl : hostAssign x v (popTurn s) = t := by simpa [hv] using h
      have hu := blockUnchanged_hostAssign_popTurn x v s
      exact ⟨hu, rfl, (busRead_of_blockUnchanged hu slot).trans hv, v, rfl,
        getVar_setVar x v s.host.vars⟩
  · rw [busWrite, issue_popTurn]
    exact ⟨rfl, rfl, rfl, rfl, rfl, rfl, rfl⟩
  · rw [busWrite, writeStatus, if_pos hv]
    exact ⟨rfl, rfl, rfl, rfl, rfl, rfl, rfl⟩
  · obtain ⟨hs, -⟩ | ⟨hs, hv', -⟩ | ⟨-, -, h⟩ := busWrite_cases slot v (popTurn s)
    · exact absurd hs hc
    · simp [hv hs] at hv'
    · rw [h]
      exact ⟨rfl, rfl, rfl, rfl, rfl, rfl, rfl⟩
  · rw [issue_of_wellFormed hb hd hwf]
    exact ⟨rfl, if_pos (accept_busy i s)⟩

/-- Settles O41: past the schedule's end the core completes the command, and the wait then reads
BUSY = 0. -/
theorem pendingCommandCompletesByDefault : Obligations.PendingCommandCompletesByDefault := by
  intro s i hturns hp hr ho
  have hstep : step s = exec i s := by
    rw [step_of_core_of_pend hp (by simp [nextAgent_of_nil hturns, busy_of_pend hp]),
      popTurn_of_nil hturns]
  obtain ⟨t, ht⟩ := exec_answers i s
  obtain ⟨htp, -, -, -, htr, htt, hth⟩ := exec_frame ht
  have htb : t.busy = false := by simp [State.busy, htp]
  have hnil : t.turns = [] := htt.trans hturns
  have hwait : HostAbout t .wait :=
    ⟨by simp [nextAgent_of_nil hnil, htb], by simpa [State.hostNext, hth] using ho⟩
  refine ⟨t, hstep, hstep.trans ht, ?_⟩
  rw [step_of_host hwait, popTurn_of_nil hnil]
  exact hostWait_of_not_busy (htr.trans hr) htb

/-- Settles O42: each of the four operations is stuck, so with a command pending the turn is the core's,
and with none it is a fault. -/
theorem stuckHostLetsTheCoreComplete : Obligations.StuckHostLetsTheCoreComplete := by
  intro s h
  obtain ⟨op, ho, hs⟩ : ∃ op, s.hostNext = some op ∧ opStuck op s = true := by
    obtain ⟨bytes, addr, e, ho, hs⟩ | ⟨bytes, addr, x, ho, hs⟩ | ⟨ho, hs⟩ | ⟨ho, hs⟩ := h
    · exact ⟨_, ho, (accessStuck_iff bytes addr s).2 hs⟩
    · exact ⟨_, ho, (accessStuck_iff bytes addr s).2 hs⟩
    · exact ⟨_, ho, hs⟩
    · exact ⟨_, ho, List.isEmpty_iff.2 hs⟩
  refine ⟨fun i hp => ?_, fun _ ha => ?_⟩
  · have hstep : step s = exec i (popTurn s) := step_of_core_of_pend hp
      (nextAgent_of_stuck (busy_of_pend hp) ((hostStuck_of_hostNext ho).trans hs))
    obtain ⟨t, ht⟩ := exec_answers i (popTurn s)
    obtain ⟨htp, -⟩ := exec_frame ht
    exact ⟨hstep, t, hstep.trans ht, htp⟩
  · rw [step_of_host ⟨ha, ho⟩]
    exact hostOp_of_opStuck ((opStuck_popTurn op s).trans hs)

/-- Settles O43: the schedule bounds the turns before the completion, a reset or a hazard read. -/
theorem pendingCommandEventuallyCompletes : Obligations.PendingCommandEventuallyCompletes :=
  fun s _ => pendingResolves_within s.turns rfl

/-- Settles O44: the wait's turns, one by one. -/
theorem waitLastsUntilTheCoreSteps : Obligations.WaitLastsUntilTheCoreSteps :=
  fun n _ _ _ => run_wait_turns n

/-- Settles O54: the stop is the host's, at an operation that is stuck, so a receive, or at a hazard
read, which the duties exclude. -/
theorem dutifulHostMeetsNoBlockFault : Obligations.DutifulHostMeetsNoBlockFault := by
  intro s r hd h
  obtain ⟨-, op, ho, hstep⟩ := step_stop_cases (s := s) (by simp [h])
  have hd' : HostDutyKept (popTurn s) := hd
  have hop : hostOp op (popTurn s) = .fault r := hstep.symm.trans h
  obtain ⟨hs, q, hq, hname⟩ | ⟨-, bytes, addr, x, slot, q, rfl, ha, he, -⟩ | ⟨-, t, ht⟩ :=
    hostOp_outcome op (popTurn s)
  · obtain rfl : q = r := by simpa [hq] using hop
    exact hname (hd'.op_eq_receive ho hs)
  · obtain ⟨v, hv⟩ := hd'.busRead_ok ho ha
    simp [hv] at he
  · simp [ht] at hop

end Sys2Proof
end

section
/-! PROOFS. The opcode table (30_encoding.md R70-R79): a word is its fields, the words that decode are the
encodings, each row's mask keeps the fields that its match fixes, and the words left over are illegal. -/

namespace Sys2Proof

/-! A word put together again from its fields, in the three ways R71 divides it. -/

theorem word_eq_fields (w : Word) :
    (opField w ++ rsvField w ++ idxField w ++ w.extractLsb' 0 16 : Word) = w := by
  simp only [opField, rsvField, idxField, BitVec.extractLsb'_append_extractLsb'_eq_extractLsb',
    BitVec.extractLsb'_eq_self]

theorem word_eq_noneFields (w : Word) : (opField w ++ rsvField w ++ w.extractLsb' 0 24 : Word) = w := by
  simp only [opField, rsvField, BitVec.extractLsb'_append_extractLsb'_eq_extractLsb',
    BitVec.extractLsb'_eq_self]

theorem word_eq_byteFields (w : Word) :
    (opField w ++ rsvField w ++ w.extractLsb' 8 16 ++ dataField w : Word) = w := by
  simp only [opField, rsvField, dataField, BitVec.extractLsb'_append_extractLsb'_eq_extractLsb',
    BitVec.extractLsb'_eq_self]

theorem exists_fields (w : Word) : ∃ (a b : Byte) (c : Half), w = a ++ b ++ c :=
  ⟨opField w ++ rsvField w, idxField w, durField w, (word_eq_fields w).symm⟩

theorem exists_byteFields (w : Word) : ∃ (a : BitVec 24) (d : Byte), w = a ++ d :=
  ⟨opField w ++ rsvField w ++ w.extractLsb' 8 16, dataField w, (word_eq_byteFields w).symm⟩

/-! What decodes, and what does not. -/

theorem whenZero_eq_ok_iff {n : Nat} {z : BitVec n} {op : BitVec 4} {i j : Instr} :
    whenZero z op i = .ok j ↔ z = 0#n ∧ i = j := by
  by_cases h : z = 0#n <;> simp [whenZero, h]

theorem whenZero_eq_error_iff {n : Nat} {z : BitVec n} {op : BitVec 4} {i : Instr} :
    (∃ e, whenZero z op i = .error e) ↔ z ≠ 0#n := by
  by_cases h : z = 0#n <;> simp [whenZero, h]

/-- Along the arms of `decode`: the opcode and the zero bits an arm has checked are those the encoding
writes, and the operands are the fields that are left. -/
theorem encode_of_decode {w : Word} {i : Instr} (h : decode w = .ok i) : encode i = w := by
  unfold decode at h
  split at h
  case isTrue => cases h
  case isFalse hr =>
    have hrsv : rsvField w = 0 := not_not.1 hr
    split at h
    case h_1 hop | h_2 hop | h_3 hop =>
      obtain ⟨hz, rfl⟩ := whenZero_eq_ok_iff.1 h
      have hw := word_eq_fields w
      rwa [hop, hrsv, hz] at hw
    case h_4 hop | h_5 hop =>
      obtain rfl := Except.ok.inj h
      have hw := word_eq_fields w
      rwa [hop, hrsv] at hw
    case h_6 hop | h_7 hop =>
      obtain ⟨hz, rfl⟩ := whenZero_eq_ok_iff.1 h
      have hw := word_eq_noneFields w
      rwa [hop, hrsv, hz] at hw
    case h_8 hop =>
      obtain ⟨hz, rfl⟩ := whenZero_eq_ok_iff.1 h
      have hw := word_eq_byteFields w
      rwa [hop, hrsv, hz] at hw
    case h_9 => cases h

/-- The words that decode are the encodings, each of its own instruction. -/
theorem decode_eq_ok_iff {w : Word} {i : Instr} : decode w = .ok i ↔ encode i = w :=
  ⟨encode_of_decode, fun h => h ▸ decode_encode i⟩

/-- The opcodes without a row in R76. -/
theorem reservedOpcode_iff (op : BitVec 4) : (op = 0x0 ∨ op = 0x7 ∨ 0xA ≤ op.toNat) ↔
    op ≠ 0x1 ∧ op ≠ 0x2 ∧ op ≠ 0x3 ∧ op ≠ 0x4 ∧ op ≠ 0x5 ∧ op ≠ 0x6 ∧ op ≠ 0x8 ∧ op ≠ 0x9 := by
  revert op; decide

theorem decode_eq_error_iff (w : Word) : (∃ e, decode w = .error e) ↔
    (opField w = 0x0 ∨ opField w = 0x7 ∨ 0xA ≤ (opField w).toNat) ∨ rsvField w ≠ 0 ∨
    ((opField w = 0x1 ∨ opField w = 0x2 ∨ opField w = 0x3) ∧ w.extractLsb' 0 16 ≠ 0) ∨
    ((opField w = 0x6 ∨ opField w = 0x8) ∧ w.extractLsb' 0 24 ≠ 0) ∨
    (opField w = 0x9 ∧ w.extractLsb' 8 16 ≠ 0) := by
  unfold decode
  split
  case isTrue hr => exact iff_of_true ⟨_, rfl⟩ (.inr (.inl hr))
  case isFalse hr =>
    have hrsv : rsvField w = 0#4 := not_not.1 hr
    split
    case h_1 hop | h_2 hop | h_3 hop | h_4 hop | h_5 hop | h_6 hop | h_7 hop | h_8 hop =>
      simp [hop, hrsv, whenZero_eq_error_iff]
    case h_9 h1 h2 h3 h4 h5 h6 h8 h9 =>
      exact iff_of_true ⟨_, rfl⟩
        (.inl ((reservedOpcode_iff _).2 ⟨h1, h2, h3, h4, h5, h6, h8, h9⟩))

/-! What the masks of R77 keep of a word, and the words their matches leave. -/

theorem append_inj {m n : Nat} (x y : BitVec m) (a b : BitVec n) :
    x ++ a = y ++ b ↔ x = y ∧ a = b := by
  refine ⟨fun h => ⟨?_, ?_⟩, fun ⟨hx, ha⟩ => hx ▸ ha ▸ rfl⟩
  · simpa only [BitVec.extractLsb'_append_eq_left] using congrArg (BitVec.extractLsb' n m) h
  · simpa only [BitVec.extractLsb'_append_eq_right] using congrArg (BitVec.extractLsb' 0 n) h

theorem and_relayMask (a b : Byte) (c : Half) :
    (a ++ b ++ c : Word) &&& 0xFF00FFFF = a ++ 0#8 ++ c := by
  have ha : a &&& 0xFF#8 = a := BitVec.and_allOnes
  have hc : c &&& 0xFFFF#16 = c := BitVec.and_allOnes
  exact (Laws.RowMatch.and_fields a 0xFF b 0x00 c 0xFFFF).trans (by simp [ha, hc])

theorem and_flashMask (a b : Byte) (c : Half) :
    (a ++ b ++ c : Word) &&& 0xFF000000 = a ++ 0#8 ++ 0#16 := by
  have ha : a &&& 0xFF#8 = a := BitVec.and_allOnes
  exact (Laws.RowMatch.and_fields a 0xFF b 0x00 c 0x0000).trans (by simp [ha])

theorem and_byteMask (a : BitVec 24) (d : Byte) : (a ++ d : Word) &&& 0xFFFFFF00 = a ++ 0#8 := by
  have ha : a &&& 0xFFFFFF#24 = a := BitVec.and_allOnes
  exact (BitVec.and_append (x₂ := 0xFFFFFF#24) (y₂ := 0x00#8)).trans (by simp [ha])

theorem relayWord_eq_iff (k idx : Byte) (w : Word) : k ++ idx ++ 0#16 = w ↔
    w &&& 0xFF00FFFF = k ++ 0#8 ++ 0#16 ∧ idx = idxField w := by
  obtain ⟨a, b, c, rfl⟩ := exists_fields w
  rw [and_relayMask, idxField_append]
  simp only [append_inj, and_true]
  constructor <;> (rintro ⟨⟨rfl, rfl⟩, rfl⟩; simp)

theorem flashWord_eq_iff (k idx : Byte) (dur : Half) (w : Word) : k ++ idx ++ dur = w ↔
    w &&& 0xFF000000 = k ++ 0#8 ++ 0#16 ∧ idx = idxField w ∧ dur = durField w := by
  obtain ⟨a, b, c, rfl⟩ := exists_fields w
  rw [and_flashMask, idxField_append, durField_append]
  simp only [append_inj, and_true, and_assoc, eq_comm]

theorem noneWord_eq_iff (k w : Word) : k = w ↔ w &&& 0xFFFFFFFF = k := by
  have hw : w &&& 0xFFFFFFFF = w := BitVec.and_allOnes
  rw [hw, eq_comm]

theorem byteWord_eq_iff (k : BitVec 24) (data : Byte) (w : Word) : k ++ data = w ↔
    w &&& 0xFFFFFF00 = k ++ 0#8 ∧ data = dataField w := by
  obtain ⟨a, d, rfl⟩ := exists_byteFields w
  rw [and_byteMask, dataField_append]
  simp only [append_inj, and_true, eq_comm]

/-! No word matches two rows, because every mask keeps the opcode and no two matches share one. -/

/-- The match and the mask of every row of R77. -/
def opcodeRows : List (Word × Word) :=
  [(0x10000000, 0xFF00FFFF), (0x20000000, 0xFF00FFFF), (0x30000000, 0xFF00FFFF),
   (0x40000000, 0xFF000000), (0x50000000, 0xFF000000), (0x60000000, 0xFFFFFFFF),
   (0x80000000, 0xFFFFFFFF), (0x90000000, 0xFFFFFF00)]

theorem opField_eq_of_match {w m k : Word} (h : w &&& k = m) (hk : opField k = 0xF#4) :
    opField w = opField m := by
  have hw : opField w &&& 0xF#4 = opField w := BitVec.and_allOnes
  rw [← h, ← hw, ← hk]
  exact BitVec.extractLsb'_and.symm

/-- At most one element of a list passes a test that no two of its elements pass together. -/
theorem length_filter_le_one {α : Type*} {p : α → Bool} {l : List α}
    (h : l.Pairwise fun a b => p a = true → p b = true → False) : (l.filter p).length ≤ 1 := by
  have hall (a : α) (ha : a ∈ l.filter p) : p a = true := (List.mem_filter.1 ha).2
  have hpair := h.filter p
  rcases hl : l.filter p with _ | ⟨a, _ | ⟨b, rest⟩⟩
  · simp
  · simp
  · rw [hl] at hpair hall
    exact ((List.pairwise_cons.1 hpair).1 b (by simp) (hall a (by simp)) (hall b (by simp))).elim

theorem opcodeRows_match_le_one (w : Word) :
    (opcodeRows.filter fun row => w &&& row.2 = row.1).length ≤ 1 := by
  have hrows : opcodeRows.Pairwise fun a b =>
      opField a.2 = 0xF#4 ∧ opField b.2 = 0xF#4 ∧ opField a.1 ≠ opField b.1 := by decide
  refine length_filter_le_one (hrows.imp fun ⟨ha, hb, hne⟩ hwa hwb => hne ?_)
  exact (opField_eq_of_match (of_decide_eq_true hwa) ha).symm.trans
    (opField_eq_of_match (of_decide_eq_true hwb) hb)

end Sys2Proof

namespace Sys2Proof.Machine

/-! The two ways acceptance refuses a word while BUSY = 0 (R171). -/

theorem issue_of_illFormed {w : Word} {i : Instr} {s : State} (hb : s.busy = false)
    (hd : decode w = .ok i) (hw : i.wellFormed = false) : issue w s = raiseError .range s := by
  simp [issue, hb, hd, durationZero_eq, hw]

theorem issue_of_illegal {w : Word} {s : State} (hb : s.busy = false)
    (hd : ∃ e, decode w = .error e) : issue w s = raiseError .illegal s := by
  obtain ⟨e, hd⟩ := hd
  simp [issue, hb, hd]

end Sys2Proof.Machine

namespace Sys2Proof
open Machine

/-- Settles O1: the arms of `decode` read back the fields each pattern of R71 writes. -/
theorem decodeOfEncodeIsIdentity : Obligations.DecodeOfEncodeIsIdentity :=
  decode_encode

/-- Settles O2: what an arm of `decode` has checked and read is the whole word. -/
theorem encodeOfDecodeIsIdentity : Obligations.EncodeOfDecodeIsIdentity :=
  fun _ _ => encode_of_decode

/-- Settles O3: a word decodes to an instruction when it is its encoding, which the row's mask and match
say; the opcode tells the rows apart, and duration 0 is refused by acceptance. -/
theorem decodeMatchesOpcodeTable : Obligations.DecodeMatchesOpcodeTable := by
  have hflashOn (w : Word) (idx : Byte) (dur : Half) :=
    (decode_eq_ok_iff (w := w) (i := .flashOn idx dur)).trans (flashWord_eq_iff 0x40#8 idx dur w)
  have hflashOff (w : Word) (idx : Byte) (dur : Half) :=
    (decode_eq_ok_iff (w := w) (i := .flashOff idx dur)).trans (flashWord_eq_iff 0x50#8 idx dur w)
  refine ⟨fun w idx => decode_eq_ok_iff.trans (relayWord_eq_iff 0x10#8 idx w),
    fun w idx => decode_eq_ok_iff.trans (relayWord_eq_iff 0x20#8 idx w),
    fun w idx => decode_eq_ok_iff.trans (relayWord_eq_iff 0x30#8 idx w),
    hflashOn, hflashOff,
    fun w => decode_eq_ok_iff.trans (noneWord_eq_iff 0x60000000 w),
    fun w => decode_eq_ok_iff.trans (noneWord_eq_iff 0x80000000 w),
    fun w data => decode_eq_ok_iff.trans (byteWord_eq_iff 0x900000#24 data w),
    opcodeRows_match_le_one, fun w s hb hm hz => ?_⟩
  obtain h | h := hm
  · exact issue_of_illFormed hb ((hflashOn w _ 0).2 ⟨h, rfl, hz.symm⟩) rfl
  · exact issue_of_illFormed hb ((hflashOff w _ 0).2 ⟨h, rfl, hz.symm⟩) rfl

/-- Settles O4: the arms of `decode` that reject, and the report of an illegal word. -/
theorem illegalWordsAreTheReservedOnes : Obligations.IllegalWordsAreTheReservedOnes :=
  fun w => ⟨decode_eq_error_iff w, fun he _ hb => issue_of_illegal hb he⟩

/-- Settles O5: each of the eight words is the encoding of its instruction. -/
theorem specWordsDecode : Obligations.SpecWordsDecode :=
  ⟨decode_encode (.relayOn 0x02), decode_encode (.relayOff 0x07), decode_encode (.relayFlip 0xFF),
    decode_encode (.flashOn 0x03 0x000A), decode_encode (.flashOff 0x07 0xFFFF),
    decode_encode .stateQuery, decode_encode .crcInit, decode_encode (.crcUpd 0xAB)⟩

end Sys2Proof
end

section
/-! PROOFS. The assembler (30_encoding.md R84): an operand in its range goes into its field of the word,
and one that is not is refused. -/

namespace Sys2Proof.Machine

theorem setWidth_ofNat_of_lt {v n : Nat} (w : Nat) (h : n < 2 ^ v) :
    (BitVec.ofNat v n).setWidth w = BitVec.ofNat w n := by
  apply BitVec.eq_of_toNat_eq
  simp [Nat.mod_eq_of_lt h]

/-- A word put together from opcode byte, IDX and low half, by shift and OR (R70). -/
theorem fields_append_eq_or (a b : Byte) (c : Half) : (a ++ b ++ c : Word) =
    a.setWidth 32 <<< 24 ||| b.setWidth 32 <<< 16 ||| c.setWidth 32 := by
  ext i hi
  simp only [BitVec.getElem_append, BitVec.getElem_or, BitVec.getElem_shiftLeft,
    BitVec.getElem_setWidth]
  grind

theorem asmByte_map {α : Type} (f : Byte → α) (n : Nat) :
    (asmByte n).map f = if n ≤ 255 then some (f (BitVec.ofNat 8 n)) else none := by
  by_cases hn : n ≤ 255 <;> simp [asmByte, hn]

theorem asmByte_bind_asmDuration {α : Type} (f : Byte → Half → α) (n d : Nat) :
    ((asmByte n).bind fun i => (asmDuration d).map (f i)) =
      if n ≤ 255 ∧ 1 ≤ d ∧ d ≤ 65535 then some (f (BitVec.ofNat 8 n) (BitVec.ofNat 16 d))
      else none := by
  by_cases hn : n ≤ 255 <;> by_cases hd : 1 ≤ d ∧ d ≤ 65535 <;> simp [asmByte, asmDuration, hn, hd]

/-- A relay line: the opcode byte `k` and the index (R77, R84). -/
theorem assemble_relayLine {l : AsmLine} {n : Nat} {mk : Byte → Instr} (k : Byte)
    (hl : l.instr = (asmByte n).map mk) (hk : ∀ idx, encode (mk idx) = k ++ idx ++ 0#16) :
    assemble l =
      if n ≤ 255 then some (k.setWidth 32 <<< 24 ||| BitVec.ofNat 32 n <<< 16) else none := by
  rw [assemble, hl, Option.map_map, asmByte_map]
  refine if_ctx_congr Iff.rfl (fun hn => congrArg some ?_) fun _ => rfl
  have hidx := setWidth_ofNat_of_lt (v := 8) 32 (show n < 2 ^ 8 by omega)
  simp [hk, fields_append_eq_or, hidx]

/-- A flash line: the opcode byte `k`, the index and the duration (R77, R84). -/
theorem assemble_flashLine {l : AsmLine} {n d : Nat} {mk : Byte → Half → Instr} (k : Byte)
    (hl : l.instr = (asmByte n).bind fun i => (asmDuration d).map (mk i))
    (hk : ∀ idx dur, encode (mk idx dur) = k ++ idx ++ dur) :
    assemble l = if n ≤ 255 ∧ 1 ≤ d ∧ d ≤ 65535 then
      some (k.setWidth 32 <<< 24 ||| BitVec.ofNat 32 n <<< 16 ||| BitVec.ofNat 32 d) else none := by
  rw [assemble, hl, asmByte_bind_asmDuration, apply_ite (Option.map encode)]
  refine if_ctx_congr Iff.rfl (fun ⟨hn, hd⟩ => congrArg some ?_) fun _ => rfl
  have hidx := setWidth_ofNat_of_lt (v := 8) 32 (show n < 2 ^ 8 by omega)
  have hdur := setWidth_ofNat_of_lt (v := 16) 32 (show d < 2 ^ 16 by omega)
  rw [hk, fields_append_eq_or, hidx, hdur]

/-- The CRC.UPD line: DATA alone under the opcode (R77, R84). -/
theorem assemble_crcUpd (n : Nat) : assemble (.crcUpd n) =
    if n ≤ 255 then some (0x90000000 ||| BitVec.ofNat 32 n) else none := by
  rw [assemble, AsmLine.instr, Option.map_map, asmByte_map]
  refine if_ctx_congr Iff.rfl (fun hn => congrArg some ?_) fun _ => rfl
  have hdata := setWidth_ofNat_of_lt (v := 8) 32 (show n < 2 ^ 8 by omega)
  exact (append_byte_eq_or 0x900000#24 _).trans (congrArg (0x90000000 ||| ·) hdata)

end Sys2Proof.Machine

namespace Sys2Proof
open Machine

/-- Settles O6: each line's operands are checked, and its encoding is the sum of its fields. -/
theorem assemblerWordsAndRanges : Obligations.AssemblerWordsAndRanges :=
  fun n _ => ⟨assemble_relayLine 0x10 rfl fun _ => rfl, assemble_relayLine 0x20 rfl fun _ => rfl,
    assemble_relayLine 0x30 rfl fun _ => rfl, assemble_flashLine 0x40 rfl fun _ _ => rfl,
    assemble_flashLine 0x50 rfl fun _ _ => rfl, rfl, rfl, assemble_crcUpd n⟩

end Sys2Proof
end

section
/-! PROOFS. The payloads of the frame commands (30_encoding.md R74, R82, R83): a payload's bytes say which
command it is of and with which operands, a frame is signed when it starts with a payload and ends with
its CRC, and every relay index is byte 3 of both. -/

namespace Sys2Proof.Machine

/-! From a payload back to its command. -/

/-- The frame command a payload is of, by its bytes 1, 2 and 4 (R83); defined on every six bytes. -/
def commandOfPayload (p : Payload) : Instr :=
  if p[1] = 0x01 then .stateQuery
  else if p[2] = 0x00 then
    if p[4] = actionOn then .relayOn p[3]
    else if p[4] = actionOff then .relayOff p[3]
    else .relayFlip p[3]
  else if p[2] = flashActionOn then .flashOn p[3] (cat16 p[4] p[5])
  else .flashOff p[3] (cat16 p[4] p[5])

theorem commandOfPayload_framePayload {i : Instr} {p : Payload} (h : framePayload i = some p) :
    commandOfPayload p = i := by
  cases i with
  | relayOn idx | relayOff idx | relayFlip idx | stateQuery => cases h; rfl
  | flashOn idx dur | flashOff idx dur =>
    cases h
    simp [commandOfPayload, flashPayload, flashActionOn, flashActionOff]
  | crcInit | crcUpd _ => cases h

/-! Signed frames by their bytes. -/

/-- A frame is a payload's signed frame when it starts with the payload and ends with its CRC (R120). -/
theorem eq_sign_iff (f : Frame) (p : Payload) : f = sign p ↔
    p = #v[f[0], f[1], f[2], f[3], f[4], f[5]] ∧ cat16 f[7] f[6] = computeCRC p.toList := by
  refine ⟨?_, fun ⟨hp, hcrc⟩ => ?_⟩
  · rintro rfl
    exact ⟨Vector.toList_inj.1 (payload_toList p), sign_crc p⟩
  · have hlow : f[6] = (sign p)[6] := by rw [sign_low, ← hcrc, lo8_cat16]
    have hhigh : f[7] = (sign p)[7] := by rw [sign_high, ← hcrc, hi8_cat16]
    subst hp
    refine Vector.ext fun k hk => ?_
    interval_cases k
    exacts [rfl, rfl, rfl, rfl, rfl, rfl, hlow, hhigh]

theorem signedFrame_iff (f : Frame) : SignedFrame f ↔
    cat16 f[7] f[6] = computeCRC [f[0], f[1], f[2], f[3], f[4], f[5]] ∧
    ∃ i, i.wellFormed = true ∧ framePayload i = some #v[f[0], f[1], f[2], f[3], f[4], f[5]] := by
  constructor
  · rintro ⟨i, p, hw, hp, hf⟩
    obtain ⟨rfl, hcrc⟩ := (eq_sign_iff f p).1 hf
    exact ⟨hcrc, i, hw, hp⟩
  · rintro ⟨hcrc, i, hw, hp⟩
    exact ⟨i, _, hw, hp, (eq_sign_iff f _).2 ⟨rfl, hcrc⟩⟩

/-- A flash command is in range when its duration is at least 1 (R75). -/
theorem bne_zero_iff_one_le (dur : Half) : (dur != 0) = true ↔ 1 ≤ dur.toNat := by
  rw [bne_iff_ne, Nat.one_le_iff_ne_zero, ne_eq, ne_eq, BitVec.toNat_eq]
  rfl

theorem flashPayload_cat16 (fa idx high low : Byte) :
    flashPayload fa idx (cat16 high low) = #v[0x01, 0x05, fa, idx, high, low] := by
  simp [flashPayload]

/-- Six bytes are the payload of a frame command in range when they are a row of R82. -/
theorem exists_framePayload_iff (b0 b1 b2 b3 b4 b5 : Byte) :
    (∃ i, i.wellFormed = true ∧ framePayload i = some #v[b0, b1, b2, b3, b4, b5]) ↔
    (b0 = 0x01 ∧ b1 = 0x05 ∧ b2 = 0x00 ∧ (b4 = 0xFF ∨ b4 = 0x00 ∨ b4 = 0x55) ∧ b5 = 0x00) ∨
    (b0 = 0x01 ∧ b1 = 0x05 ∧ (b2 = 0x02 ∨ b2 = 0x04) ∧ 1 ≤ (cat16 b4 b5).toNat) ∨
    (b0 = 0x01 ∧ b1 = 0x01 ∧ b2 = 0x00 ∧ b3 = 0x00 ∧ b4 = 0x00 ∧ b5 = 0x08) := by
  constructor
  · rintro ⟨i, hw, hp⟩
    cases i with
    | relayOn idx | relayOff idx | relayFlip idx =>
      cases hp
      exact .inl ⟨rfl, rfl, rfl, by decide, rfl⟩
    | flashOn idx dur | flashOff idx dur =>
      cases hp
      rw [cat16_hi8_lo8]
      exact .inr (.inl ⟨rfl, rfl, by decide, (bne_zero_iff_one_le dur).1 hw⟩)
    | stateQuery => cases hp; decide
    | crcInit | crcUpd _ => cases hp
  · rintro (⟨rfl, rfl, rfl, rfl | rfl | rfl, rfl⟩ | ⟨rfl, rfl, rfl | rfl, hdur⟩ |
      ⟨rfl, rfl, rfl, rfl, rfl, rfl⟩)
    · exact ⟨.relayOn b3, rfl, rfl⟩
    · exact ⟨.relayOff b3, rfl, rfl⟩
    · exact ⟨.relayFlip b3, rfl, rfl⟩
    · exact ⟨.flashOn b3 (cat16 b4 b5), (bne_zero_iff_one_le _).2 hdur,
        congrArg some (flashPayload_cat16 flashActionOn b3 b4 b5)⟩
    · exact ⟨.flashOff b3 (cat16 b4 b5), (bne_zero_iff_one_le _).2 hdur,
        congrArg some (flashPayload_cat16 flashActionOff b3 b4 b5)⟩
    · exact ⟨.stateQuery, rfl, rfl⟩

/-! The relay index, from the host's number to frame byte 3. -/

theorem issueAndComplete_frameCommand {i : Instr} {p : Payload} {s : State} (hb : s.busy = false)
    (hw : i.wellFormed = true) (hp : framePayload i = some p) :
    issueAndComplete [encode i] s = .next (completeFrame p (accept i s)) :=
  issueAndComplete_cons [] hw hb (exec_of_framePayload _ hp)

/-- Relay numbers 1-8 are the indices 0-7, and 256, which is 0xFF, is none of these (R151). -/
theorem cliRelayIdx_eq_iff (n : Nat) {idx : Byte} (h : idx.toNat ≤ 7) :
    cliRelayIdx n = some idx ↔ n = idx.toNat + 1 := by
  unfold cliRelayIdx
  split
  case isTrue hn =>
    rw [Option.some_inj, BitVec.toNat_eq, BitVec.toNat_ofNat]
    omega
  case isFalse hn =>
    refine iff_of_false nofun fun hidx => hn ?_
    omega

end Sys2Proof.Machine

namespace Sys2Proof
open Machine

/-- Settles O23: the payload determines its command, and the marks are read off each command's payload. -/
theorem payloadsTellCommandsApart : Obligations.PayloadsTellCommandsApart := by
  refine ⟨fun i j p hi hj => ?_, fun i p h => ?_⟩
  · exact (commandOfPayload_framePayload hi).symm.trans (commandOfPayload_framePayload hj)
  · cases i with
    | relayOn idx | relayOff idx | relayFlip idx =>
      cases h
      simp [relayPayload, actionOn, actionOff, actionFlip]
    | flashOn idx dur | flashOff idx dur =>
      cases h
      simp [flashPayload, flashActionOn, flashActionOff]
    | stateQuery => cases h; simp [queryPayload]
    | crcInit | crcUpd _ => cases h

/-- Settles O22: a signed frame is a payload in range with its CRC, and the payloads are the rows of R82. -/
theorem signedFramesAreTheThreeShapes : Obligations.SignedFramesAreTheThreeShapes := fun f =>
  (signedFrame_iff f).trans
    (and_congr_right' (exists_framePayload_iff f[0] f[1] f[2] f[3] f[4] f[5]))

/-- Settles O25: each of the five commands is accepted and completes with its own payload, whose byte 3 is
the index. -/
theorem everyRelayIndexIsEmbedded : Obligations.EveryRelayIndexIsEmbedded := by
  refine ⟨fun idx dur s hb hdur i hi => ?_, fun n idx => cliRelayIdx_eq_iff n, rfl⟩
  have hflash : (dur != 0) = true := bne_iff_ne.2 hdur
  have hframe {p : Payload} (hw : i.wellFormed = true) (hp : framePayload i = some p)
      (h3 : p[3] = idx) : ∃ t f, issueAndComplete [encode i] s = .next t ∧ t.err = false ∧
        t.frame = some f ∧ f[3] = idx :=
    ⟨_, _, issueAndComplete_frameCommand hb hw hp, rfl, rfl, h3⟩
  simp only [List.mem_cons, List.not_mem_nil, or_false] at hi
  obtain rfl | rfl | rfl | rfl | rfl := hi
  · exact hframe rfl rfl rfl
  · exact hframe rfl rfl rfl
  · exact hframe rfl rfl rfl
  · exact hframe hflash rfl rfl
  · exact hframe hflash rfl rfl

end Sys2Proof
end

section
/-! PROOFS. A command word's way through the machine with no turn fixed in advance: placed by
`withFetchWord` (log entry 4), and written to CMD by a host that then waits, as the pseudo-instruction
CRC.BLOCK does for one command after the other (30_encoding.md R85, 40_crc_engine.md R112). -/

namespace Sys2Proof.Machine

/-! The word placed by `withFetchWord`. -/

theorem withFetchWord_encode (i : Instr) (s : State) :
    s.withFetchWord 32 (encode i).toNat = loadCommandWord (encode i) s := by
  rw [State.withFetchWord, Nat.mod_eq_of_lt (encode i).isLt, BitVec.ofNat_toNat, BitVec.setWidth_eq]

theorem popTurn_pushTurn (a : Agent) {s : State} {turns : List Agent} (h : s.turns = turns) :
    popTurn { s with turns := a :: turns } = s := by
  subst h; rfl

/-- A placed word's turn is the core's, which finds what the acceptance check has left pending. -/
theorem step_loadCommandWord (w : Word) (s : State) :
    step (loadCommandWord w s) = coreTurn (issue w { s with pend := none, inReset := false }) := by
  obtain ⟨-, -, -, -, hturns, -⟩ := issue_frame w { s with pend := none, inReset := false }
  rw [step_of_core rfl, loadCommandWord, popTurn_pushTurn .core hturns]

/-! The host's program, by what is left of it at its position. -/

theorem hostNext_of_drop {s : State} {op : HostOp} {ops : List HostOp}
    (h : s.host.prog.drop s.host.pos = op :: ops) : s.hostNext = some op := by
  rw [State.hostNext, ← List.head?_drop, h, List.head?_cons]

theorem drop_succ_of_drop {α : Type*} {l rest : List α} {n : Nat} {a : α}
    (h : l.drop n = a :: rest) : l.drop (n + 1) = rest := by
  rw [← List.tail_drop, h, List.tail_cons]

/-- A command issued and waited for takes three steps: the host's write, the core's completion, and the
read of STATUS that ends the wait. -/
theorem run_issueAndWait (k : Nat) {i : Instr} {s t : State} {rest : List HostOp}
    (hturns : s.turns = []) (hb : s.busy = false) (hr : s.inReset = false)
    (hw : i.wellFormed = true) (hops : s.host.prog.drop s.host.pos = issueAndWait i ++ rest)
    (he : exec i (hostAdvance (accept i s)) = .next t) :
    Sys2Proof.core.run (k + 3) s = Sys2Proof.core.run k (hostAdvance t) := by
  have hwrites : HostWrites s .cmd (encode i) :=
    ⟨hr, _, _, _, ⟨by simp [nextAgent_of_nil hturns, hb], hostNext_of_drop hops⟩,
      admitted_base_add 0x00, rfl⟩
  have hissue : step s = .next (hostAdvance (accept i s)) := by
    rw [step_of_write hwrites, popTurn_of_nil hturns, busWrite,
      issue_of_wellFormed hb (decode_encode i) hw]
  have hwait : (hostAdvance (accept i s)).hostNext = some .wait :=
    hostNext_of_drop (drop_succ_of_drop hops)
  obtain ⟨u, hexec, hcomplete, hgo⟩ :=
    pendingCommandCompletesByDefault (hostAdvance (accept i s)) i hturns rfl hr hwait
  obtain rfl : t = u := Host.Outcome.next.inj (he.symm.trans (hexec.symm.trans hcomplete))
  rw [core_run_of_next _ hissue, core_run_of_next _ hcomplete, core_run_of_next _ hgo]
  rfl

/-! CRC.BLOCK (R85). -/

/-- The state `s` after `n` CRC commands, each issued and waited for, with the accumulator at `acc`. -/
def afterCrcCommands (n : Nat) (acc : Byte × Byte) (s : State) : State :=
  { s with
    crcHi := acc.1, crcLo := acc.2, pend := none, err := false, ecode := 0
    host := { s.host with pos := s.host.pos + 2 * n, draws := s.host.draws + 2 * n } }

/-- The CRC.UPD commands of the bytes `bs`, after `n` CRC commands, fold `crcStep` over them. -/
theorem run_crcUpds (bs : List Byte) (n : Nat) (acc : Byte × Byte) {s : State} {rest : List HostOp}
    (hturns : s.turns = []) (hr : s.inReset = false)
    (hops : s.host.prog.drop (s.host.pos + 2 * n) =
      (bs.map .crcUpd).flatMap issueAndWait ++ rest) :
    Sys2Proof.core.run (3 * bs.length) (afterCrcCommands n acc s) =
      .next (afterCrcCommands (n + bs.length) (bs.foldl crcStep acc) s) := by
  induction bs generalizing n acc with
  | nil => rfl
  | cons b bs ih =>
    rw [List.map_cons, List.flatMap_cons, List.append_assoc] at hops
    have hupd : Sys2Proof.core.run (3 * bs.length + 3) (afterCrcCommands n acc s) =
        Sys2Proof.core.run (3 * bs.length) (afterCrcCommands (n + 1) (crcStep acc b) s) :=
      run_issueAndWait (i := .crcUpd b) (s := afterCrcCommands n acc s) _ hturns rfl hr rfl hops rfl
    rw [List.length_cons, Nat.mul_succ, hupd, Nat.add_comm bs.length, ← Nat.add_assoc]
    exact ih (n + 1) (crcStep acc b) (drop_succ_of_drop (drop_succ_of_drop hops))

end Sys2Proof.Machine

namespace Sys2Proof
open Machine

/-- Settles O38: the placed word is accepted or refused with RANGE, and the core's turn completes what is
pending, or passes. -/
theorem fetchedWordRunsNext : Obligations.FetchedWordRunsNext := by
  refine ⟨fun s i hw => ?_, fun s i hw => ?_⟩
  · rw [withFetchWord_encode, step_loadCommandWord, issue_of_wellFormed rfl (decode_encode i) hw,
      coreTurn_of_pend rfl]
    rfl
  · rw [withFetchWord_encode, step_loadCommandWord, issue_of_illFormed rfl (decode_encode i) hw]
    rfl

/-- Settles O45: CRC.INIT sets the accumulator to its start value, and the CRC.UPD commands fold
`crcStep` over the bytes. -/
theorem crcBlockRunComputesTheCrc : Obligations.CrcBlockRunComputesTheCrc := by
  intro bs s before after hturns hb hr hprog hpos
  have hops : s.host.prog.drop s.host.pos =
      issueAndWait .crcInit ++ ((bs.map .crcUpd).flatMap issueAndWait ++ after) := by
    simp [hprog, hpos, Pseudo.hostOps, Pseudo.expand]
  have hinit : Sys2Proof.core.run (3 * bs.length + 3) s =
      Sys2Proof.core.run (3 * bs.length) (afterCrcCommands 1 (0xFF, 0xFF) s) :=
    run_issueAndWait _ hturns hb hr rfl hops rfl
  have hupds := run_crcUpds bs 1 (0xFF, 0xFF) hturns hr (drop_succ_of_drop (drop_succ_of_drop hops))
  refine ⟨_, hinit.trans hupds, rfl, busRead_crc rfl, rfl, rfl, rfl, ?_⟩
  rw [← hpos, Nat.add_comm bs.length]
  rfl

end Sys2Proof
end

section
/-! PROOFS. The CRC engine (40_crc_engine.md R103-R111): the update step on the 16-bit value, what the
tables are, and the residue of a sequence followed by its own CRC; and with it the completion of the CRC
commands and of the frame commands. -/

namespace Sys2Proof.Machine

/-! The update step on the 16-bit value (R103). -/

theorem setWidth_sixteen_eq_cat16 (b : Byte) : b.setWidth 16 = cat16 0 b :=
  BitVec.setWidth_eq_append (by decide)

/-- A data byte is folded into the low half only. -/
theorem cat16_xor_byte (h l b : Byte) : cat16 h l ^^^ b.setWidth 16 = cat16 h (l ^^^ b) := by
  simp [setWidth_sixteen_eq_cat16, cat16_xor_cat16]

theorem cat16_eq_xor (h l : Byte) : cat16 h l = cat16 h 0 ^^^ l.setWidth 16 := by
  simp [cat16_xor_byte]

/-- Eight bit steps move the high byte down and take the low byte through the generator. -/
theorem crcEightBits_cat16 (h l : Byte) : crcEightBits (cat16 h l) = cat16 0 h ^^^ crcT l := by
  rw [cat16_eq_xor, crcEightBits_xor, crcEightBits_highByte, crcT]

theorem cat16_shiftRight_eight (h l : Byte) : cat16 h l >>> 8 = cat16 0 h :=
  (BitVec.ushiftRight_eq_extractLsb'_of_lt (by decide)).trans
    (congrArg (cat16 0) (hi8_cat16 h l))

/-- Masking with 0xFF keeps the low byte (R16). -/
theorem setWidth_and_lowMask (v : Half) : (v &&& 0xFF).setWidth 8 = lo8 v := by
  rw [BitVec.setWidth_and, lo8]
  exact BitVec.and_allOnes

/-! Which tables give the CRC of every one-byte sequence (R107). -/

theorem cat16_inj {a b c d : Byte} : cat16 a b = cat16 c d ↔ a = c ∧ b = d := by
  refine ⟨fun h => ⟨?_, ?_⟩, fun ⟨hh, hl⟩ => hh ▸ hl ▸ rfl⟩
  · simpa using congrArg hi8 h
  · simpa using congrArg lo8 h

/-- The CRC of one byte shows one entry of each table. -/
theorem computeCRCWith_singleton (th tl : Byte → Byte) (b : Byte) :
    computeCRCWith th tl [b] = cat16 (tl (0xFF ^^^ b)) (0xFF ^^^ th (0xFF ^^^ b)) := rfl

theorem tables_eq_of_singletons {th tl th' tl' : Byte → Byte}
    (h : ∀ b : Byte, computeCRCWith th tl [b] = computeCRCWith th' tl' [b]) : th = th' ∧ tl = tl' := by
  have entries (i : Byte) : tl i = tl' i ∧ th i = th' i := by
    simpa [computeCRCWith_singleton, cat16_inj, BitVec.xor_right_inj] using h (0xFF ^^^ i)
  exact ⟨funext fun i => (entries i).2, funext fun i => (entries i).1⟩

/-! The generator and the tables are linear over exclusive OR (R108). -/

theorem xorLinear_crcT : XorLinear crcT := fun i j => by
  rw [crcT, BitVec.setWidth_xor, crcEightBits_xor, crcT, crcT]

theorem xorLinear_crcTableHigh : XorLinear crcTableHigh := fun i j => by
  simp only [crcTableHigh_eq_lo8_crcT, xorLinear_crcT i j, lo8, BitVec.extractLsb'_xor]

theorem xorLinear_crcTableLow : XorLinear crcTableLow := fun i j => by
  simp only [crcTableLow_eq_hi8_crcT, xorLinear_crcT i j, hi8, BitVec.extractLsb'_xor]

theorem XorLinear.zero {n : Nat} {table : Byte → BitVec n} (h : XorLinear table) : table 0 = 0 := by
  simpa using h 0 0

/-- The entries of the literal listing of R102 (R108 (c)). -/
theorem crcTableHighRows_subset : crcTableHighRows ⊆ crcTableHighValues := by
  decide +kernel

theorem crcTableHigh_mem_values (i : Byte) : crcTableHigh i ∈ crcTableHighValues := by
  have hi : i.toNat < crcTableHighRows.length := crcTableHighRows_length ▸ i.isLt
  rw [crcTableHigh, List.getD_eq_getElem _ _ hi]
  exact crcTableHighRows_subset (List.getElem_mem hi)

/-- The low `n` bits of a byte. -/
def lowBits (i : Byte) (n : Nat) : Byte := (i.setWidth n).setWidth 8

theorem lowBits_zero (i : Byte) : lowBits i 0 = 0 := by
  rw [lowBits, BitVec.eq_nil (i.setWidth 0)]
  rfl

theorem lowBits_eight (i : Byte) : lowBits i 8 = i := by
  simp [lowBits]

theorem lowBits_succ (i : Byte) (n : Nat) :
    lowBits i (n + 1) = if i.getLsbD n then lowBits i n ^^^ 1#8 <<< n else lowBits i n := by
  ext j hj
  split <;> grind [lowBits]

/-- A linear table's entry at the low `n` bits of `i` is the exclusive OR of its entries at those bits. -/
theorem XorLinear.foldl_bits {table : Byte → Half} (h : XorLinear table) (i : Byte) (n : Nat) :
    (List.range n).foldl (fun acc k => if i.getLsbD k then acc ^^^ table (1#8 <<< k) else acc) 0 =
      table (lowBits i n) := by
  induction n with
  | zero => exact (lowBits_zero i ▸ h.zero).symm
  | succ n ih =>
    rw [List.range_succ, List.foldl_append, ih, lowBits_succ, List.foldl_cons, List.foldl_nil]
    split
    · exact (h _ _).symm
    · rfl

theorem crcTFromEight_eq_crcT (i : Byte) : crcTFromEight i = crcT i :=
  (xorLinear_crcT.foldl_bits i 8).trans (congrArg crcT (lowBits_eight i))

/-! The bit steps lose nothing, so a CRC of 0 determines the last two bytes (R109). -/

theorem crcBitStep_eq_zero_iff (v : Half) : crcBitStep v = 0 ↔ v = 0 := by
  refine ⟨fun h => ?_, fun h => by rw [h]; rfl⟩
  rw [crcBitStep] at h
  split at h
  next =>
    have htop : v >>> 1 = 0xA001 := BitVec.xor_eq_zero_iff.1 h
    bv_omega
  next hlow =>
    ext i hi
    cases i with
    | zero => simpa using hlow
    | succ i =>
      have hbit : (v >>> 1).getLsbD i = false := by simp [h]
      simpa [Nat.add_comm 1 i, hi] using hbit

theorem crcEightBits_eq_zero_iff (v : Half) : crcEightBits v = 0 ↔ v = 0 := by
  simp only [crcEightBits, crcBitStep_eq_zero_iff]

/-- One more byte is one more table step (R105). -/
theorem computeCRC_append_byte (d : List Byte) (b : Byte) :
    computeCRC (d ++ [b]) = crcEightBits (computeCRC d ^^^ b.setWidth 16) := by
  simp only [computeCRC_eq_crcBitwise, crcBitwise, List.foldl_append, List.foldl_cons, List.foldl_nil]

/-- Two more bytes, low one first, are folded in as one 16-bit value. -/
theorem computeCRC_append_pair (d : List Byte) (lo hi : Byte) :
    computeCRC (d ++ [lo, hi]) = crcEightBits (crcEightBits (computeCRC d ^^^ cat16 hi lo)) := by
  calc computeCRC (d ++ [lo, hi])
      = crcEightBits (crcEightBits (computeCRC d ^^^ lo.setWidth 16) ^^^ hi.setWidth 16) := by
        rw [List.append_cons, computeCRC_append_byte, computeCRC_append_byte]
    _ = crcEightBits (crcEightBits (computeCRC d ^^^ cat16 hi lo)) := by
        rw [cat16_eq_xor hi lo, BitVec.xor_comm (cat16 hi 0), ← BitVec.xor_assoc,
          crcEightBits_xor _ (cat16 hi 0), crcEightBits_highByte, setWidth_sixteen_eq_cat16 hi]

theorem computeCRC_append_pair_eq_zero_iff (d : List Byte) (lo hi : Byte) :
    computeCRC (d ++ [lo, hi]) = 0 ↔ computeCRC d = cat16 hi lo := by
  rw [computeCRC_append_pair, crcEightBits_eq_zero_iff, crcEightBits_eq_zero_iff]
  exact BitVec.xor_eq_zero_iff

theorem frame_toList (f : Frame) : f.toList = f.toList.take 6 ++ [f[6], f[7]] := by
  have hlast : f.toList.drop 6 = [f[6], f[7]] := by
    refine List.ext_getElem (by simp) fun k hk _ => ?_
    have hk2 : k < 2 := by simpa using hk
    interval_cases k <;> simp
  rw [← hlast, List.take_append_drop]

theorem computeCRC_frame_eq_zero_iff (f : Frame) :
    computeCRC f.toList = 0 ↔ computeCRC (f.toList.take 6) = cat16 f[7] f[6] := by
  conv_lhs => rw [frame_toList f]
  exact computeCRC_append_pair_eq_zero_iff _ _ _

theorem computeCRC_sign_take (p : Payload) :
    computeCRC ((sign p).toList.take 6) = cat16 (sign p)[7] (sign p)[6] := by
  rw [sign_toList_take, sign_crc]

end Sys2Proof.Machine

namespace Sys2Proof
open Machine

/-- Settles O8: the eight bit steps move the old high byte down and take the old low byte, with the data
byte, through the generator. -/
theorem crcStepCommitsBothHalves : Obligations.CrcStepCommitsBothHalves := fun hi lo b => by
  refine ⟨rfl, ?_⟩
  rw [cat16_crcStep, cat16_shiftRight_eight, setWidth_and_lowMask, cat16_xor_byte, lo8_cat16,
    crcEightBits_cat16]

/-- Settles O9: step by step the two agree on the 16-bit value; the check value is the table CRC's. -/
theorem tableCrcEqualsBitwiseCrc : Obligations.TableCrcEqualsBitwiseCrc :=
  ⟨computeCRC_eq_crcBitwise, by decide +kernel⟩

/-- Settles O10: the one-byte sequence `0xFF ^ i` shows entry `i` of both tables. -/
theorem crcTablesAreUnique : Obligations.CrcTablesAreUnique := by
  refine ⟨fun th tl h => tables_eq_of_singletons fun b => ?_, by decide +kernel, by decide +kernel⟩
  rw [h, ← computeCRC_eq_crcBitwise, computeCRC]

/-- Settles O11: the bit steps are linear, and a linear table is fixed by its entries at the single
bits. -/
theorem crcTablesAreLinear : Obligations.CrcTablesAreLinear := by
  refine ⟨xorLinear_crcT, xorLinear_crcTableHigh, xorLinear_crcTableLow, xorLinear_crcT.zero,
    crcTableHigh_mem_values, fun i => ?_⟩
  rw [crcTFromEight_eq_crcT]
  exact ⟨rfl, crcTableHigh_eq_lo8_crcT i, crcTableLow_eq_hi8_crcT i⟩

/-- Settles O12: the CRC of a sequence with two more bytes is 0 exactly when they are its CRC, low byte
first; a signed frame ends with that of its payload. -/
theorem crcResidueIsZero : Obligations.CrcResidueIsZero := by
  refine ⟨fun d => ?_, fun p => ⟨?_, computeCRC_sign_take p⟩, computeCRC_frame_eq_zero_iff⟩
  · rw [computeCRC_append_pair_eq_zero_iff, cat16_hi8_lo8]
  · exact (computeCRC_frame_eq_zero_iff _).2 (computeCRC_sign_take p)

/-- Settles O20: from either state the command completes with the same signed payload. -/
theorem frameIgnoresTheAccumulator : Obligations.FrameIgnoresTheAccumulator := by
  rintro i s s' t t' ⟨p, hp⟩ ht ht'
  rw [exec_of_framePayload _ hp] at ht ht'
  cases ht
  cases ht'
  simp

/-- Settles O18: each is `completeCrc` with its own accumulator. -/
theorem crcCommandsUpdateTheAccumulator : Obligations.CrcCommandsUpdateTheAccumulator :=
  fun _ _ => ⟨rfl, rfl⟩

end Sys2Proof
end

section
/-! PROOFS. The frame commands at completion (41_frame_assembler.md R120, R121, R130-R133, R137-R139): what
completing one writes, and with it the relay frame and the one state-query frame byte by byte. -/

namespace Sys2Proof.Machine

/-! What completion writes (R121). -/

theorem completeFrame_eq (p : Payload) (s : State) : completeFrame p s = { s with
    frame := some (sign p), crcHi := (sign p)[7], crcLo := (sign p)[6], pend := none } := by
  simp [completeFrame]

theorem completeFrame_busy (p : Payload) (s : State) : (completeFrame p s).busy = false := rfl

/-- After a completion a read of CRC returns the CRC just signed (R33, R121). -/
theorem busRead_crc_completeFrame (p : Payload) (s : State) : busRead .crc (completeFrame p s) =
    .ok ((cat16 (sign p)[7] (sign p)[6]).setWidth 32) := by
  rw [busRead_crc (completeFrame_busy p s), completeFrame_eq]

/-- Completing a relay command, with the payload and its CRC written out (R121, R133). -/
theorem completeFrame_relayPayload (idx act : Byte) (s : State) :
    let crc := computeCRC [0x01, 0x05, 0x00, idx, act, 0x00]
    completeFrame (relayPayload idx act) s = { s with
      frame := some #v[0x01, 0x05, 0x00, idx, act, 0x00, lo8 crc, hi8 crc],
      crcHi := hi8 crc, crcLo := lo8 crc, pend := none } :=
  completeFrame_eq _ _

/-! The state query (R139): its six update steps, one after the other, are its CRC. -/

theorem crcSteps_queryPayload :
    crcStep (0xFF, 0xFF) 0x01 = (0x80, 0x7E) ∧ crcStep (0x80, 0x7E) 0x01 = (0xE0, 0xC1) ∧
    crcStep (0xE0, 0xC1) 0x00 = (0x90, 0x21) ∧ crcStep (0x90, 0x21) 0x00 = (0x18, 0x50) ∧
    crcStep (0x18, 0x50) 0x00 = (0x3C, 0x18) ∧ crcStep (0x3C, 0x18) 0x08 = (0xCC, 0x3D) := by
  decide +kernel

theorem computeCRC_queryPayload : computeCRC queryPayload.toList = 0xCC3D := by
  have hlist : queryPayload.toList = [0x01, 0x01, 0x00, 0x00, 0x00, 0x08] := rfl
  obtain ⟨h1, h2, h3, h4, h5, h6⟩ := crcSteps_queryPayload
  rw [computeCRC_eq_foldl, hlist]
  simp only [List.foldl_cons, List.foldl_nil, h1, h2, h3, h4, h5, h6]
  rfl

theorem sign_queryPayload :
    sign queryPayload = #v[0x01, 0x01, 0x00, 0x00, 0x00, 0x08, 0x3D, 0xCC] := by
  simp only [sign, computeCRC_queryPayload]
  rfl

end Sys2Proof.Machine

namespace Sys2Proof
open Machine

/-- Settles O14: completion signs the payload and leaves its CRC in the accumulator, where a read finds
it. -/
theorem frameCommandCompletionWrites : Obligations.FrameCommandCompletionWrites := fun _ p s hp =>
  ⟨completeFrame p s, exec_of_framePayload s hp, completeFrame_eq p s, rfl, completeFrame_busy p s,
    busRead_crc_completeFrame p s⟩

/-- Settles O15: the three relay commands complete with the relay payload of their own action. -/
theorem relayCommandsBuildTheirFrames : Obligations.RelayCommandsBuildTheirFrames := fun idx s =>
  ⟨congrArg Host.Outcome.next (completeFrame_relayPayload idx actionOn s),
    congrArg Host.Outcome.next (completeFrame_relayPayload idx actionOff s),
    congrArg Host.Outcome.next (completeFrame_relayPayload idx actionFlip s)⟩

/-- Settles O17: the listed update steps give the payload's CRC, so signing it gives the constant
frame. -/
theorem stateQueryFrameIsConstant : Obligations.StateQueryFrameIsConstant := by
  refine ⟨fun s => ?_, computeCRC_queryPayload, crcSteps_queryPayload⟩
  rw [exec_of_framePayload (p := queryPayload) s rfl, completeFrame_eq, sign_queryPayload]
  rfl

end Sys2Proof
end

section
/-! PROOFS. The host's side (45_host_side.md): how a reply is decoded (R155), which command a command line
gives and when it is rejected (R151-R153), and the host's operations that do not touch the block (R154,
R158). -/

namespace Sys2Proof.Machine

/-! The decode of a reply (R155). -/

theorem and_shiftLeft_bne_zero (b : Byte) (i : Fin 8) : ((b &&& (1#8 <<< i.val)) != 0) = b[i] := by
  have hpow : BitVec.twoPow 8 i.val ≠ 0 := fun h => by
    simpa [i.isLt] using congrArg (BitVec.getLsbD · i.val) h
  rw [← BitVec.twoPow_eq, BitVec.and_twoPow]
  cases hb : b[i] <;> simp_all [BitVec.getLsbD_eq_getElem]

theorem decodeState_of_length_lt {r : List Byte} (h : r.length < 4) :
    decodeState r = .malformedResponse := by
  rw [decodeState, List.getElem?_eq_none (by omega)]

/-! The numbers of the command line (R151-R153), in range and outside it. -/

theorem cliRelayIdx_of_le {n : Nat} (h1 : 1 ≤ n) (h8 : n ≤ 8) :
    cliRelayIdx n = some (BitVec.ofNat 8 (n - 1)) :=
  if_pos (.inl ⟨h1, h8⟩)

theorem cliRelayIdx_eq_none {n : Nat} (h : n = 0 ∨ 8 < n) (hall : n ≠ 256) : cliRelayIdx n = none :=
  if_neg (by omega)

theorem cliFlashIdx_of_le {n : Nat} (h1 : 1 ≤ n) (h8 : n ≤ 8) :
    cliFlashIdx n = some (BitVec.ofNat 8 (n - 1)) :=
  if_pos ⟨h1, h8⟩

theorem cliFlashIdx_eq_none {n : Nat} (h : n = 0 ∨ 8 < n) : cliFlashIdx n = none :=
  if_neg (by omega)

/-- A duration that is given is the number itself, not truncated (R153). -/
theorem cliDuration_eq_some_iff {d : Nat} {dur : Half} :
    cliDuration d = some dur ↔ dur.toNat = d ∧ 1 ≤ d := by
  unfold cliDuration
  split
  case isTrue hd =>
    rw [Option.some_inj, BitVec.toNat_eq, BitVec.toNat_ofNat]
    omega
  case isFalse hd =>
    refine iff_of_false nofun fun hdur => hd ?_
    omega

theorem cliDuration_eq_none {d : Nat} (h : d = 0 ∨ 65535 < d) : cliDuration d = none :=
  if_neg (by omega)

/-! The command of a command line. -/

theorem instr_relay_eq_none {n : Nat} (h : cliRelayIdx n = none) (a : CliAction) :
    (CliCommand.relay n a).instr = none := by
  cases a <;> simp [CliCommand.instr, h]

theorem instr_flash_eq_none {n d : Nat} (h : cliFlashIdx n = none ∨ cliDuration d = none) (on : Bool) :
    (CliCommand.flash n on d).instr = none := by
  obtain h | h := h <;> cases on <;> simp [CliCommand.instr, h]

/-- The host rejects a duration of 0, so the block is never given one (R75, R153). -/
theorem wellFormed_of_instr {c : CliCommand} {i : Instr} (h : c.instr = some i) :
    i.wellFormed = true := by
  cases c with
  | relay n a =>
    cases a <;> obtain ⟨idx, -, rfl⟩ := Option.map_eq_some_iff.1 h <;> rfl
  | flash n on d =>
    have hpos {dur : Half} (hdur : cliDuration d = some dur) : (dur != 0) = true := by
      obtain ⟨rfl, h1⟩ := cliDuration_eq_some_iff.1 hdur
      exact (bne_zero_iff_one_le dur).2 h1
    cases on <;>
    · obtain ⟨idx, -, hmap⟩ := Option.bind_eq_some_iff.1 h
      obtain ⟨dur, hdur, rfl⟩ := Option.map_eq_some_iff.1 hmap
      exact hpos hdur
  | state => cases h; rfl

/-! The host's operations on its own state (R154, R158). -/

/-- A step of the host into which only its own state goes leaves the block. -/
theorem blockUnchanged_popTurn_host (s : State) (h : HostSide) :
    BlockUnchanged s { popTurn s with host := h } :=
  ⟨rfl, rfl, rfl, rfl, rfl, rfl, rfl⟩

theorem step_of_branch {s : State} {x target : Nat} {e : HostExpr} (h : HostAbout s (.bne x e target)) :
    step s = .next (hostGoto (if varValue s.host x = evalExpr s.host e then s.host.pos + 1 else target)
      (popTurn s)) := by
  rw [step_of_host h, hostOp, hostBranch, popTurn_host]
  by_cases heq : varValue s.host x = evalExpr s.host e
  · simp [heq, hostAdvance]
  · simp [heq]

theorem step_of_receive_bytes {s : State} {bs : List Byte} {rest : List Reply}
    (h : HostAbout s .receive) (hr : s.host.replies = .bytes bs :: rest) :
    step s = .next (hostAdvance { popTurn s with
      host := { s.host with reply := some (bs.take 1024), replies := rest } }) := by
  simp [step_of_host h, hostOp, hostReceive, hr]

theorem step_of_receive_failure {s : State} {rest : List Reply} (h : HostAbout s .receive)
    (hr : s.host.replies = .transportFailure :: rest) :
    step s = .next (hostGoto s.host.prog.length { popTurn s with
      host := { s.host with transportFailed := true, replies := rest } }) := by
  simp [step_of_host h, hostOp, hostReceive, hr]

theorem hostNext_hostGoto_length (s : State) : (hostGoto s.host.prog.length s).hostNext = none := by
  simp [State.hostNext]

theorem evalFrame_getElem (h : HostSide) (fs : Vector HostExpr 8) (k : Fin 8) :
    (evalFrame h fs)[k] = (evalExpr h fs[k]).extractLsb' 0 8 := by
  simp [evalFrame]

end Sys2Proof.Machine

namespace Sys2Proof
open Machine

/-- Settles O55: each operation's step changes the host's own state only, and its value is read off that
step. -/
theorem hostComputationsAlwaysRun : Obligations.HostComputationsAlwaysRun := by
  refine ⟨fun s x e h => ?assign, fun s x e target h => ?branch, fun s fs h => ?send,
    fun s bs rest h hr => ?receive, fun s rest h hr => ?failure, fun s h => ?decode,
    fun _ _ _ => varValue_of_getVar⟩
  case assign =>
    exact ⟨_, step_of_host h, blockUnchanged_popTurn_host s _, rfl,
      varValue_of_getVar (getVar_setVar x _ s.host.vars),
      fun y hy => getVar_setVar_of_ne _ s.host.vars hy⟩
  case branch =>
    exact ⟨_, step_of_branch h, blockUnchanged_popTurn_host s _, rfl, rfl⟩
  case send =>
    exact ⟨_, evalFrame s.host fs, step_of_host h, blockUnchanged_popTurn_host s _, rfl, rfl,
      evalFrame_getElem s.host fs⟩
  case receive =>
    exact ⟨_, step_of_receive_bytes h hr, blockUnchanged_popTurn_host s _, rfl, rfl, rfl, rfl, rfl, rfl⟩
  case failure =>
    exact ⟨_, step_of_receive_failure h hr, blockUnchanged_popTurn_host s _,
      hostNext_hostGoto_length _, rfl, rfl, rfl, rfl, rfl⟩
  case decode =>
    exact ⟨_, decodeState (replyValue s.host), step_of_host h, blockUnchanged_popTurn_host s _, rfl, rfl,
      fun r hr => congrArg decodeState (replyValue_of_reply hr)⟩

/-- Settles O56: each number is in its range or rejected, and a command given has its operands in
range. -/
theorem cliCommandsMapToBlockCommands : Obligations.CliCommandsMapToBlockCommands := by
  refine ⟨fun n h1 h8 => ?_, rfl, rfl, rfl, fun n d hn1 hn8 hd1 hd => ?_, rfl, fun n a hn hall => ?_,
    fun n d on h => ?_, fun c i => wellFormed_of_instr⟩
  · simp [CliCommand.instr, cliRelayIdx_of_le h1 h8]
  · have hdur : (BitVec.ofNat 16 d).toNat = d :=
      (BitVec.toNat_ofNat d 16).trans (Nat.mod_eq_of_lt (by omega))
    have hd' := cliDuration_eq_some_iff.2 ⟨hdur, hd1⟩
    exact ⟨_, hdur, by simp [CliCommand.instr, cliFlashIdx_of_le hn1 hn8, hd'],
      by simp [CliCommand.instr, cliFlashIdx_of_le hn1 hn8, hd']⟩
  · exact instr_relay_eq_none (cliRelayIdx_eq_none hn hall) a
  · exact instr_flash_eq_none ((or_assoc.2 h).imp cliFlashIdx_eq_none cliDuration_eq_none) on

/-- Settles O57: byte 3 is missing from a shorter reply, and bit `i` of it is the test of the mask. -/
theorem replyDecodeReadsByteThree : Obligations.ReplyDecodeReadsByteThree := by
  refine ⟨fun r => decodeState_of_length_lt, fun b0 b1 b2 b3 rest => ⟨_, rfl, fun i => ?_⟩⟩
  rw [and_shiftLeft_bne_zero]
  simp

end Sys2Proof
end

section
/-! PROOFS. The acceptance check as a step of the host (60_exceptions.md R171-R173); the core's turn, which
never fails (R176); and an idle block, which only a write or a reset changes (R185). -/

namespace Sys2Proof.Machine

theorem issue_of_busy (w : Word) {s : State} (hb : s.busy = true) :
    issue w s = raiseError .overrun s := by
  simp [issue, hb]

theorem wellFormed_iff_ne_flash_zero (i : Instr) :
    i.wellFormed = true ↔ ∀ idx, i ≠ .flashOn idx 0 ∧ i ≠ .flashOff idx 0 := by
  cases i <;> simp [Instr.wellFormed]

/-- A write of CMD is the acceptance check of its word, and the host goes on. -/
theorem step_of_cmdWrite {s t : State} {w : Word} (h : HostWrites s .cmd w)
    (hi : issue w (popTurn s) = t) : step s = .next (hostAdvance t) := by
  rw [step_of_write h, busWrite, hi]

theorem coreTurn_of_not_busy {s : State} (hb : s.busy = false) : coreTurn s = .next s := by
  simp [coreTurn, pend_of_not_busy hb]

theorem step_of_endedHost {s : State} (ha : nextAgent s = .host) (ho : s.hostNext = none) :
    step s = .next (popTurn s) := by
  simp [step, agentTurn, ha, hostTurn, ho]

/-- A host operation that is neither a store nor a reset event leaves the block alone, also while
BUSY = 1. -/
theorem blockUnchanged_of_host {s t : State} {op : HostOp} (ho : HostAbout s op)
    (h : step s = .next t) (hs : ∀ bytes addr e, op ≠ .store bytes addr e) (hr : op ≠ .reset)
    (hg : op ≠ .assertReset) : BlockUnchanged s t := by
  obtain ⟨ha, ho⟩ := ho
  have hq : BlockQuiet s := blockQuiet_of_host ha (by simpa [ho] using hs) (by simpa [ho] using hr)
    (by simpa [ho] using hg)
  cases blockStep_of_step h with
  | reset resets _ => exact absurd resets hq.noReset
  | write slot v writes _ => exact absurd writes (hq.noWrite slot v)
  | completion i core _ _ => simp [ha] at core
  | quiet _ unchanged _ => exact unchanged

end Sys2Proof.Machine

namespace Sys2Proof
open Machine

/-- Settles O24: the first of the four cases of acceptance that applies is the host's step; a command is
in range exactly when it is no flash command of duration 0. -/
theorem commandWriteIsAcceptedOrRefused : Obligations.CommandWriteIsAcceptedOrRefused := by
  refine ⟨fun s w hw => ⟨fun hb => ?overrun, fun hb hd => ?illegal, fun idx hb hd => ?range,
    fun i hb hd hi => ?accepted⟩, ⟨_, rfl⟩, ⟨_, rfl⟩⟩
  case overrun => exact step_of_cmdWrite hw (issue_of_busy w hb)
  case illegal => exact step_of_cmdWrite hw (issue_of_illegal hb hd)
  case range =>
    obtain hd | hd := hd
    · exact step_of_cmdWrite hw (issue_of_illFormed hb hd rfl)
    · exact step_of_cmdWrite hw (issue_of_illFormed hb hd rfl)
  case accepted =>
    exact step_of_cmdWrite hw (issue_of_wellFormed hb hd ((wellFormed_iff_ne_flash_zero i).2 hi))

/-- Settles O39: the core's turn passes, or completes the pending command, which never fails. -/
theorem coreTurnNeverFails : Obligations.CoreTurnNeverFails := by
  intro s ha
  rw [step_of_core ha]
  obtain ⟨hp, h⟩ | ⟨i, -, h⟩ := coreTurn_cases (popTurn s)
  · exact ⟨_, h, hp, rfl, rfl, rfl⟩
  · obtain ⟨t, ht⟩ := exec_answers i (popTurn s)
    obtain ⟨hp, he, hc, hs, -⟩ := exec_frame ht
    exact ⟨t, h.trans ht, hp, he, hc, hs⟩

/-- Settles O40: with nothing pending the core's turn passes, as an ended host's does, and of the host's
operations only a store and a reset reach the block. -/
theorem idleBlockKeepsItsState : Obligations.IdleBlockKeepsItsState :=
  ⟨fun _ hb ha => (step_of_core ha).trans (coreTurn_of_not_busy hb),
    fun _ _ => step_of_endedHost,
    fun _ _ _ _ => blockUnchanged_of_host⟩

end Sys2Proof
end

section
/-! PROOFS. The hazard reads as steps of the host (70_reset_and_hazards.md R210, R211), and the reset event
and the reset input held (R200, R201). -/

namespace Sys2Proof.Machine

/-! An admitted read, by what the slot answers. -/

theorem step_of_read_ok {s : State} {slot : Slot} {x : Nat} {v : Word} (h : HostReads s slot x)
    (hv : busRead slot s = .ok v) : step s = .next (hostAssign x v (popTurn s)) := by
  rw [step_of_read h, hv]

theorem step_of_read_error {s : State} {slot : Slot} {x : Nat} {r : Fault} (h : HostReads s slot x)
    (hr : busRead slot s = .error r) : step s = .fault r := by
  rw [step_of_read h, hr]

/-! The two hazards. -/

/-- While BUSY = 1 the fault is BUSY's, whether or not the frame buffer holds a value (log entry 6). -/
theorem readFrame_of_busy {s : State} (slot : Slot) (hb : s.busy = true) :
    readFrame slot s = .error (.readWhileBusy slot) := if_pos hb

theorem readFrame_of_unwritten {s : State} (slot : Slot) (hb : s.busy = false)
    (hv : s.fvalid = false) : readFrame slot s = .error (.readUnwrittenFrame slot) := by
  have hf : s.frame = none := by simpa [State.fvalid] using hv
  simp [readFrame, hb, hf]

/-- A frame slot's read fails as the frame buffer's does. -/
theorem busRead_of_readFrame_error {slot : Slot} {s : State} {r : Fault}
    (hs : slot = .frame0 ∨ slot = .frame1) (hr : readFrame slot s = .error r) :
    busRead slot s = .error r := by
  obtain rfl | rfl := hs <;> rw [busRead, hr, Except.map]

theorem busRead_of_busy {slot : Slot} {s : State} (hs : slot = .crc ∨ slot = .frame0 ∨ slot = .frame1)
    (hb : s.busy = true) : busRead slot s = .error (.readWhileBusy slot) := by
  obtain rfl | hs := hs
  · exact busRead_crc_of_busy hb
  · exact busRead_of_readFrame_error hs (readFrame_of_busy slot hb)

/-! Accesses while reset is held (R201). -/

theorem hostStore_of_inReset (bytes addr : Nat) (e : HostExpr) {s : State} (hr : s.inReset = true) :
    hostStore bytes addr e s = .fault .accessInReset := if_pos hr

theorem hostLoad_of_inReset (bytes addr x : Nat) {s : State} (hr : s.inReset = true) :
    hostLoad bytes addr x s = .fault .accessInReset := if_pos hr

theorem hostWait_of_inReset {s : State} (hr : s.inReset = true) :
    hostWait s = .fault .accessInReset := if_pos hr

/-! The steps of the reset input. -/

theorem step_of_assertReset {s : State} (h : HostAbout s .assertReset) :
    step s = .next (hostAdvance { resetBlock (popTurn s) with inReset := true }) := step_of_host h

theorem step_of_releaseReset {s : State} (h : HostAbout s .releaseReset) :
    step s = .next (hostAdvance { popTurn s with inReset := false }) := step_of_host h

/-- The reset values are the block's own: the host's side, the schedule and the reset input have no part
in them. -/
theorem BlockAtReset.of_blockUnchanged {s t : State} (hs : BlockAtReset s) (h : BlockUnchanged s t) :
    BlockAtReset t := by
  obtain ⟨hhi, hlo, hf, hp, he, hc, hse⟩ := h
  simpa [BlockAtReset, hhi, hlo, hf, hp, he, hc, hse] using hs

/-- Releasing reset moves the host and the reset input only. -/
theorem blockUnchanged_of_releaseReset {s t : State} (h : HostAbout s .releaseReset)
    (hstep : step s = .next t) : BlockUnchanged s t :=
  blockUnchanged_of_host h hstep nofun nofun nofun

end Sys2Proof.Machine

namespace Sys2Proof
open Machine

/-- Settles O30: a host's read has a next state exactly when its slot answers a value, which STATUS
always does and CRC does while BUSY = 0. -/
theorem hazardReadsFault : Obligations.HazardReadsFault := by
  refine ⟨fun s slot x h hb hs => ?busy, fun s slot x h hb hv hs => ?unwritten, fun s x h => ?status,
    fun s x h hb => ?crc⟩
  case busy => exact step_of_read_error h (busRead_of_busy hs hb)
  case unwritten =>
    exact step_of_read_error h (busRead_of_readFrame_error hs (readFrame_of_unwritten slot hb hv))
  case status => exact ⟨_, step_of_read_ok h rfl⟩
  case crc => exact ⟨_, step_of_read_ok h (busRead_crc hb)⟩

/-- Settles O35: the three accesses test the reset input first, and a release leaves the reset values
that the invariant holds the block at. -/
theorem accessInResetIsStuck : Obligations.AccessInResetIsStuck := by
  refine ⟨fun s h => ?asserted, fun s bytes addr e hr h => ?store, fun s bytes addr x hr h => ?load,
    fun s hr h => ?wait, fun s hs hr h => ?released⟩
  case asserted => exact ⟨_, step_of_assertReset h, blockAtReset_resetBlock _ _, rfl⟩
  case store => exact (step_of_host h).trans (hostStore_of_inReset bytes addr e hr)
  case load => exact (step_of_host h).trans (hostLoad_of_inReset bytes addr x hr)
  case wait => exact (step_of_host h).trans (hostWait_of_inReset hr)
  case released =>
    have hstep := step_of_releaseReset h
    have hreset : BlockAtReset s := hs.inResetAtReset hr
    exact ⟨_, hstep, hreset.of_blockUnchanged (blockUnchanged_of_releaseReset h hstep), rfl⟩

/-- Settles O34: the host's reset is `resetBlock`, which looks at no piece of the block's state. -/
theorem resetSetsEveryPieceOfState : Obligations.ResetSetsEveryPieceOfState := fun _ => step_of_host

end Sys2Proof
end
